-- ==== Sys2Proof/Word.lean ====
section
/-! DEFINITION. The word types of AHT20-FV (`10_state.md` R22): registers are 8, 16, 32 or 64 bits wide. -/

namespace Sys2Proof

/-- A frame byte, an 8-bit register or a host offset (`20_memory.md` R51). -/
abbrev Byte := BitVec 8

/-- A command word (`30_encoding.md` R70) or a 16-bit register. -/
abbrev Word16 := BitVec 16

end Sys2Proof
end

