-- ==== Sys2Proof/Syntax.lean ====
section
/-! DEFINITION. The commands, the host accesses and the host-program lines of AHT20-FV, as terms. -/

namespace Sys2Proof

/-- The commands: one constructor per row of `opcode_table.json` (`30_encoding.md` R74). -/
inductive Instr where
  | nop                     -- R160
  | clear                   -- R161
  | stat (imm : Byte)       -- R100
  | decode                  -- R104
  | scale                   -- R120
  | round                   -- R126
  | crcInit                 -- R142
  | crcByte (imm : Byte)    -- R143
  | check                   -- R144
  | measure                 -- R162
  deriving DecidableEq, Repr

/-- The mnemonics of the opcode map (`30_encoding.md` R74). -/
inductive Mnemonic where
  | nop | clear | stat | decode | scale | round | crcInit | crcByte | check | measure
  deriving DecidableEq, Repr

/-- Why a command word is refused when it is decoded (`30_encoding.md` R72). -/
inductive DecodeError where
  | illegalOp      -- R75
  | reservedImm    -- R76
  deriving DecidableEq, Repr

/-- The error causes (`60_exceptions.md` R181), code 0 (no error) apart. -/
inductive ErrCause where
  | illegalOp | reservedImm | frameNotLoaded | rawNotReady | badAccess | readOnly
  deriving DecidableEq, Repr

/-- The width of a host access: 1, 2, 4 or 8 bytes (`20_memory.md` R53). -/
inductive Width where
  | w1 | w2 | w4 | w8
  deriving DecidableEq, Repr

/-- An `n`-byte value of an access (`00_scope.md` R15), tagged by its width. -/
inductive Data where
  | b1 (v : BitVec 8)
  | b2 (v : BitVec 16)
  | b4 (v : BitVec 32)
  | b8 (v : BitVec 64)
  deriving DecidableEq, Repr

/-- A host access: `MemRead(addr, n)` or `MemWrite(addr, n, v)` (`00_scope.md` R15, `20_memory.md` R54, R55). -/
inductive Access where
  | read (addr : Byte) (n : Width)
  | write (addr : Byte) (v : Data)
  deriving DecidableEq, Repr

/-- What the two agents of `00_scope.md` R19 can do to the block: an access, a reset, or a reset that overlaps an
access (`70_reset_and_hazards.md` R201). -/
inductive HostEvent where
  | access (a : Access)
  | reset
  | resetOver (a : Access)
  deriving DecidableEq, Repr

/-- The registers of `10_state.md` R22. -/
inductive Reg where
  | cmd | config | err | errInfo | valid | frameVld
  | frame (i : Fin 7)
  | crcAcc | statusRaw | flags | crcCalc | crcRecv
  | rawRh | rawT | humPct | tempDeci | humF64 | tempF64
  deriving DecidableEq, Repr

/-- The host-writable registers, by what a write to each does (`20_memory.md` R55). -/
inductive WriteTarget where
  | command
  | config
  | frame (i : Fin 7)
  deriving DecidableEq, Repr

/-- One line of a host program (`30_encoding.md` R78, R79). Numbers are naturals, as the line writes them. -/
inductive Line where
  /-- `WR <reg>, <value>` -/
  | wr (r : Reg) (value : Nat)
  /-- `RD <reg>`, with the optional expected result `; -> <value>` -/
  | rd (r : Reg) (expect : Option Nat)
  /-- `CMD <mnemonic>` or `CMD <mnemonic> <imm>` -/
  | cmd (m : Mnemonic) (imm : Option Nat)
  /-- `WR.<n> <offset>, <value>` -/
  | wrRaw (n : Width) (offset value : Nat)
  /-- `RD.<n> <offset>` -/
  | rdRaw (n : Width) (offset : Nat)
  /-- `LOADFRAME b0, …, b6` -/
  | loadFrame (bytes : List Nat)
  /-- `CRCRUN b0, …, bk` -/
  | crcRun (bytes : List Nat)
  /-- `POLL b` -/
  | poll (status : Nat)
  deriving DecidableEq, Repr

end Sys2Proof
end

