-- ==== Sys2Proof/Decode.lean ====
section
/-! DEFINITION. Decoding and encoding of command words (`30_encoding.md`), and the register map that decodes the
offset and width of an access (`10_state.md` R22, `20_memory.md` R53). -/

namespace Sys2Proof

/-! ## The opcode map (R74) -/

/-- The `op` column of R74. -/
def Mnemonic.op : Mnemonic → Byte
  | .nop => 0x00 | .clear => 0x01
  | .stat => 0x10 | .decode => 0x11
  | .scale => 0x20 | .round => 0x21
  | .crcInit => 0x30 | .crcByte => 0x31 | .check => 0x32
  | .measure => 0x40

/-- The `imm` column of R74: does the operation take an immediate? -/
def Mnemonic.takesImm : Mnemonic → Bool
  | .stat | .crcByte => true
  | .nop | .clear | .decode | .scale | .round | .crcInit | .check | .measure => false

/-- The opcode map read from `op` to the operation; every value not listed is illegal (R75). -/
def mnemonicOf (op : Byte) : Option Mnemonic :=
  match op.toNat with
  | 0x00 => some .nop
  | 0x01 => some .clear
  | 0x10 => some .stat
  | 0x11 => some .decode
  | 0x20 => some .scale
  | 0x21 => some .round
  | 0x30 => some .crcInit
  | 0x31 => some .crcByte
  | 0x32 => some .check
  | 0x40 => some .measure
  | _ => none

/-- The command an operation and its immediate stand for (R73: `imm` is an unsigned byte taken as it stands). -/
def Mnemonic.instr (m : Mnemonic) (imm : Byte) : Instr :=
  match m with
  | .nop => .nop
  | .clear => .clear
  | .stat => .stat imm
  | .decode => .decode
  | .scale => .scale
  | .round => .round
  | .crcInit => .crcInit
  | .crcByte => .crcByte imm
  | .check => .check
  | .measure => .measure

/-- The operation of a command. -/
def Instr.mnemonic : Instr → Mnemonic
  | .nop => .nop
  | .clear => .clear
  | .stat _ => .stat
  | .decode => .decode
  | .scale => .scale
  | .round => .round
  | .crcInit => .crcInit
  | .crcByte _ => .crcByte
  | .check => .check
  | .measure => .measure

/-- The immediate of a command, 0 where it takes none (R78: "`imm = 0` when absent"). -/
def Instr.imm : Instr → Byte
  | .stat imm => imm
  | .crcByte imm => imm
  | .nop | .clear | .decode | .scale | .round | .crcInit | .check | .measure => 0

/-! ## Decoding and encoding (R71, R72, R78) -/

/-- `op`, bits 7:0 of the command word (R71). -/
def opField (w : Word16) : Byte := w.extractLsb' 0 8

/-- `imm`, bits 15:8 of the command word (R71). -/
def immField (w : Word16) : Byte := w.extractLsb' 8 8

/-- Decoding, total on all words: `ILLEGAL_OP` is checked before `RESERVED_IMM` (R72). -/
def decode (w : Word16) : Except DecodeError Instr :=
  match mnemonicOf (opField w) with
  | none => .error .illegalOp
  | some m =>
    if m.takesImm = false ∧ immField w ≠ 0 then .error .reservedImm
    else .ok (m.instr (immField w))

/-- `encode(m, imm) = imm ++ op(m)` (R78). -/
def encodeWord (m : Mnemonic) (imm : Byte) : Word16 := imm ++ m.op

/-- The command word of a command (R71, R74, R78). -/
def encode (i : Instr) : Word16 := encodeWord i.mnemonic i.imm

/-- The command word among the bits of an opcode-table row: its low `nbits` bits, as one 16-bit word (R70: there is
one length; log entry 9). -/
def tableWord (nbits w : Nat) : Word16 := BitVec.ofNat 16 (w % 2 ^ nbits)

/-- The command the decoder reads from the bits of an opcode-table row. -/
def decodeTableWord (nbits w : Nat) : Option Instr :=
  match decode (tableWord nbits w) with
  | .ok i => some i
  | .error _ => none

/-! ## Widths and data of accesses (R53) -/

/-- The width in bytes, as a byte: `zext_8(n)`. -/
def Width.bytes : Width → Byte
  | .w1 => 1 | .w2 => 2 | .w4 => 4 | .w8 => 8

/-- The width of a value. -/
def Data.width : Data → Width
  | .b1 _ => .w1
  | .b2 _ => .w2
  | .b4 _ => .w4
  | .b8 _ => .w8

/-- A value, zero-extended to the widest access. -/
def Data.bits : Data → BitVec 64
  | .b1 v => v.setWidth 64
  | .b2 v => v.setWidth 64
  | .b4 v => v.setWidth 64
  | .b8 v => v

/-- The `n`-byte value in the low bits of `v`. -/
def Data.ofBits (n : Width) (v : BitVec 64) : Data :=
  match n with
  | .w1 => .b1 (v.setWidth 8)
  | .w2 => .b2 (v.setWidth 16)
  | .w4 => .b4 (v.setWidth 32)
  | .w8 => .b8 v

/-! ## The register map (`10_state.md` R22) -/

/-- The `offset` column of R22. -/
def Reg.offset : Reg → Byte
  | .cmd => 0x00 | .config => 0x02 | .err => 0x03 | .errInfo => 0x04 | .valid => 0x06 | .frameVld => 0x07
  | .frame i => 0x08 + BitVec.ofNat 8 i.val
  | .crcAcc => 0x0F | .statusRaw => 0x10 | .flags => 0x11 | .crcCalc => 0x12 | .crcRecv => 0x13
  | .rawRh => 0x14 | .rawT => 0x18 | .humPct => 0x1C | .tempDeci => 0x1E | .humF64 => 0x20 | .tempF64 => 0x28

/-- The `bytes` column of R22. -/
def Reg.width : Reg → Width
  | .cmd | .errInfo | .tempDeci => .w2
  | .rawRh | .rawT => .w4
  | .humF64 | .tempF64 => .w8
  | .config | .err | .valid | .frameVld | .frame _ | .crcAcc | .statusRaw | .flags | .crcCalc | .crcRecv
  | .humPct => .w1

/-- The `host access` column of R22: the registers marked W or RW, by what a write does (`20_memory.md` R55). -/
def Reg.writeTarget : Reg → Option WriteTarget
  | .cmd => some .command
  | .config => some .config
  | .frame i => some (.frame i)
  | .err | .errInfo | .valid | .frameVld | .crcAcc | .statusRaw | .flags | .crcCalc | .crcRecv
  | .rawRh | .rawT | .humPct | .tempDeci | .humF64 | .tempF64 => none

/-- The register at a host offset; 0x1D, 0x30 to 0xFF and the offsets inside a register hold none
(`10_state.md` R22, R42). -/
def regAt (addr : Byte) : Option Reg :=
  match addr.toNat with
  | 0x00 => some .cmd
  | 0x02 => some .config
  | 0x03 => some .err
  | 0x04 => some .errInfo
  | 0x06 => some .valid
  | 0x07 => some .frameVld
  | 0x08 => some (.frame 0)
  | 0x09 => some (.frame 1)
  | 0x0A => some (.frame 2)
  | 0x0B => some (.frame 3)
  | 0x0C => some (.frame 4)
  | 0x0D => some (.frame 5)
  | 0x0E => some (.frame 6)
  | 0x0F => some .crcAcc
  | 0x10 => some .statusRaw
  | 0x11 => some .flags
  | 0x12 => some .crcCalc
  | 0x13 => some .crcRecv
  | 0x14 => some .rawRh
  | 0x18 => some .rawT
  | 0x1C => some .humPct
  | 0x1E => some .tempDeci
  | 0x20 => some .humF64
  | 0x28 => some .tempF64
  | _ => none

/-- The register an access reaches: admitted only at a register's offset with that register's width
(`20_memory.md` R53). -/
def admitted (addr : Byte) (n : Width) : Option Reg :=
  match regAt addr with
  | none => none
  | some r => if r.width = n then some r else none

end Sys2Proof
end

