-- ==== Sys2Proof/Config.lean ====
section
/-! DEFINITION. What the spec leaves open and the model leaves free (`93_implementation_defined.md` part 1). -/

namespace Sys2Proof

/-- FREE VALUE: what a read returns that a reset overlaps (`70_reset_and_hazards.md` R201: "a read during
reset returns a value the model must not rely on: any value"; I7). `k` is `State.freeCount`; a narrower read
takes the low bits. No body: nothing can be proved about it (log entry 4). -/
opaque Config.readDuringReset (k : Nat) : BitVec 64

end Sys2Proof
end

