-- ==== Sys2Proof/Machine/State.lean ====
section
/-! DEFINITION. The state of AHT20-FV (`10_state.md` R22, R47) with the host's input and record beside it, the reasons
a step can stop, and the state after reset (`70_reset_and_hazards.md` R200). -/

namespace Sys2Proof.Machine

/-- The registers of `10_state.md` R22 (CMD holds nothing, R23), and three fields of the model's own: the host's
events still to come, the values its reads returned, and the counter of free values (log entries 1, 3, 4). -/
structure State where
  config    : BitVec 8            -- R24
  err       : BitVec 8            -- R26
  errInfo   : BitVec 16           -- R27
  valid     : BitVec 8            -- R28
  frameVld  : BitVec 8            -- R29
  frame     : Vector (BitVec 8) 7 -- R30
  crcAcc    : BitVec 8            -- R31
  statusRaw : BitVec 8            -- R32
  flags     : BitVec 8            -- R33
  crcCalc   : BitVec 8            -- R34
  crcRecv   : BitVec 8            -- R35
  rawRh     : BitVec 32           -- R36
  rawT      : BitVec 32           -- R37
  humPct    : BitVec 8            -- R38
  tempDeci  : BitVec 16           -- R39
  humF64    : BitVec 64           -- R40
  tempF64   : BitVec 64           -- R41
  pending   : List HostEvent      -- model's own: oldest first
  reads     : List Data           -- model's own: oldest first (R212)
  freeCount : Nat                 -- model's own
  deriving DecidableEq, Repr

/-- The reasons for which the machine stops with a fault: none. AHT20-FV "has no trap, no exception vector and no
handler" and goes on after every access (`60_exceptions.md` R180, R190; "No behaviour of the block is `stuck`",
`93_implementation_defined.md`), so this type has no constructor (log entry 12). -/
inductive Fault : Type
  deriving DecidableEq, Repr

/-- The reasons for which an instruction has no meaning in the model. -/
inductive Refusal where
  /-- Raised by an arm of `exec` for an instruction that is not modelled yet; no arm raises it. Safe. -/
  | notModelled (mnemonic : String)
  deriving DecidableEq, Repr

/-- The state right after reset (`70_reset_and_hazards.md` R200): every register at its reset value, no host event
placed and no read recorded yet (log entries 1, 3, 4). -/
def State.reset : State where
  config := 0x00
  err := 0x00
  errInfo := 0x0000
  valid := 0x00
  frameVld := 0x00
  frame := Vector.replicate 7 0x00
  crcAcc := 0xFF
  statusRaw := 0x00
  flags := 0x00
  crcCalc := 0x00
  crcRecv := 0x00
  rawRh := 0x00000000
  rawT := 0x00000000
  humPct := 0x00
  tempDeci := 0x0000
  humF64 := 0x0000000000000000
  tempF64 := 0x0000000000000000
  pending := []
  reads := []
  freeCount := 0

end Sys2Proof.Machine
end

