-- ==== Sys2Proof/Machine/Ops.lean ====
section
/-! DEFINITION. The named operations over the registers: field access, recording an error, reading and writing a
register, reset. -/

namespace Sys2Proof.Machine

/-! ## Bit fields -/

/-- `v[i] <- b`. -/
def setBit (v : BitVec 8) (i : Nat) (b : Bool) : BitVec 8 :=
  bif b then v ||| BitVec.twoPow 8 i else v &&& ~~~BitVec.twoPow 8 i

/-- `CONFIG.CRC_PROFILE`, bit 0 (`10_state.md` R24). -/
def State.crcProfile (s : State) : Bool := s.config.getLsbD 0

/-- `CONFIG.HUM_RND`, bit 1 (`10_state.md` R24). -/
def State.humRnd (s : State) : Bool := s.config.getLsbD 1

/-- `ERR.CAUSE`, bits 3:0 (`10_state.md` R26). -/
def State.cause (s : State) : BitVec 4 := s.err.extractLsb' 0 4

/-- `ERR.MULTI`, bit 7 (`10_state.md` R26). -/
def State.multi (s : State) : Bool := s.err.getLsbD 7

/-- `VALID.V_RAW`, bit 1 (`10_state.md` R28). -/
def State.vRaw (s : State) : Bool := s.valid.getLsbD 1

/-! ## Recording an error: the block's only exception (`60_exceptions.md` R180, R184) -/

/-- The cause codes of `60_exceptions.md` R181. -/
def causeCode : ErrCause → BitVec 4
  | .illegalOp => 0x1
  | .reservedImm => 0x2
  | .frameNotLoaded => 0x3
  | .rawNotReady => 0x4
  | .badAccess => 0x5
  | .readOnly => 0x6

/-- `raise Error(cause, info)` (`60_exceptions.md` R184): the first error is kept with its detail, a later one only sets
MULTI; no other register changes. It has no return beside it: "There is no return from an error" (R189). -/
def raiseError (cause : ErrCause) (info : BitVec 16) (s : State) : State :=
  if s.cause = 0 then
    { s with err := s.err.extractLsb' 4 4 ++ causeCode cause, errInfo := info }
  else
    { s with err := setBit s.err 7 true }

/-- `zext_8(n) ++ addr`, the detail of an access error (`20_memory.md` R54, R55). -/
def accessInfo (n : Width) (addr : Byte) : BitVec 16 := n.bytes ++ addr

/-- The cause a refused command word records (`30_encoding.md` R72). -/
def decodeCause : DecodeError → ErrCause
  | .illegalOp => .illegalOp
  | .reservedImm => .reservedImm

/-! ## Reading and writing registers -/

/-- The value a host read of a register returns, with its always-zero bits as 0 (`20_memory.md` R54, `10_state.md` R22 to
R41); CMD reads 0x0000 (R23). -/
def State.readReg (s : State) : Reg → Data
  | .cmd => .b2 0x0000
  | .config => .b1 (s.config &&& 0x03)
  | .err => .b1 (s.err &&& 0x8F)
  | .errInfo => .b2 s.errInfo
  | .valid => .b1 (s.valid &&& 0x1F)
  | .frameVld => .b1 (s.frameVld &&& 0x7F)
  | .frame i => .b1 s.frame[i]
  | .crcAcc => .b1 s.crcAcc
  | .statusRaw => .b1 s.statusRaw
  | .flags => .b1 (s.flags &&& 0x07)
  | .crcCalc => .b1 s.crcCalc
  | .crcRecv => .b1 s.crcRecv
  | .rawRh => .b4 (s.rawRh &&& 0x000FFFFF)
  | .rawT => .b4 (s.rawT &&& 0x000FFFFF)
  | .humPct => .b1 s.humPct
  | .tempDeci => .b2 s.tempDeci
  | .humF64 => .b8 s.humF64
  | .tempF64 => .b8 s.tempF64

/-- A host write to CONFIG: `CONFIG <- zext_8(v[1:0])` (`10_state.md` R25). -/
def writeConfig (v : Byte) (s : State) : State :=
  { s with config := (v.extractLsb' 0 2).setWidth 8 }

/-- A host write to FRAMEi: `FRAME[i] <- v; FRAME_VLD[i] <- 1` (`10_state.md` R30). -/
def writeFrame (i : Fin 7) (v : Byte) (s : State) : State :=
  { s with frame := s.frame.set i v, frameVld := setBit s.frameVld i.val true }

/-- The host's record of a read (`70_reset_and_hazards.md` R212; log entry 3). -/
def recordRead (d : Data) (s : State) : State := { s with reads := s.reads ++ [d] }

/-- Reset: every register takes its reset value (`70_reset_and_hazards.md` R200); what the host has still to issue and
what it has read are the host's and stay. -/
def resetBlock (s : State) : State :=
  { State.reset with pending := s.pending, reads := s.reads, freeCount := s.freeCount }

end Sys2Proof.Machine
end

