-- ==== Sys2Proof/Machine/Control.lean ====
section
/-! DEFINITION. Control operations (`43_control.md` R160, R161): NOP and CLEAR. -/

namespace Sys2Proof.Machine

/-- `NOP`: no register changes (`43_control.md` R160). -/
def execNop (s : State) : Host.Outcome State Fault Refusal := .next s

/-- `CLEAR`: the reset state with the CONFIG the host had set (`43_control.md` R161). -/
def execClear (s : State) : Host.Outcome State Fault Refusal :=
  .next { resetBlock s with config := s.config }

end Sys2Proof.Machine
end

