-- ==== Sys2Proof/Machine/Flags.lean ====
section
/-! DEFINITION. FLAGS and VALID (`10_state.md` R28, R33, R43, R44). -/

namespace Sys2Proof.Machine

/-- `FLAGS.BUSY <- status[7]; FLAGS.CAL <- status[3]`, the other flags kept (`10_state.md` R33, `40_decode.md` R100). -/
def statusFlags (status flags : BitVec 8) : BitVec 8 :=
  setBit (setBit flags 0 (status.getLsbD 7)) 1 (status.getLsbD 3)

/-- `FLAGS.CRC_OK <- ok`, the other flags kept (`10_state.md` R33, `42_crc.md` R144). -/
def crcFlag (ok : Bool) (flags : BitVec 8) : BitVec 8 := setBit flags 2 ok

/-- The valid bits of `10_state.md` R28, as masks over VALID. -/
def vStatMask : BitVec 8 := 0b00000001
def vRawMask : BitVec 8 := 0b00000010
def vCrcMask : BitVec 8 := 0b00000100
def vScaleMask : BitVec 8 := 0b00001000
def vRoundMask : BitVec 8 := 0b00010000

/-- Setting valid bits; no operation clears one (`10_state.md` R44). -/
def setValid (mask valid : BitVec 8) : BitVec 8 := valid ||| mask

end Sys2Proof.Machine
end

