-- ==== Sys2Proof/Machine/Operands.lean ====
section
/-! DEFINITION. The operands of the operations: the frame's fields, the CRC window and the CRC function, the exact
scaled and rounded values. -/

namespace Sys2Proof.Machine

/-! ## The frame (`40_decode.md`) -/

/-- Are frame bytes 0 to 5 loaded: `FRAME_VLD[5:0] = 0b111111` (`40_decode.md` R104)? -/
def State.loaded6 (s : State) : Bool := s.frameVld.extractLsb' 0 6 == 0b111111#6

/-- Are frame bytes 0 to 6 loaded: `FRAME_VLD[6:0] = 0b1111111` (`42_crc.md` R144)? -/
def State.loaded7 (s : State) : Bool := s.frameVld.extractLsb' 0 7 == 0b1111111#7

/-- The status byte, frame byte 0 (`40_decode.md` R103). -/
def frameStatus (f : Vector (BitVec 8) 7) : BitVec 8 := f[0]

/-- `rawRH = (b1 << 12) | (b2 << 4) | (b3 >> 4)` (`40_decode.md` R104, R105). -/
def frameRh (f : Vector (BitVec 8) 7) : BitVec 20 :=
  (f[1].setWidth 20 <<< 12) ||| (f[2].setWidth 20 <<< 4) ||| (f[3] >>> 4).setWidth 20

/-- `rawT = ((b3 & 0x0F) << 16) | (b4 << 8) | b5` (`40_decode.md` R104, R106). -/
def frameT (f : Vector (BitVec 8) 7) : BitVec 20 :=
  ((f[3] &&& 0x0F).setWidth 20 <<< 16) ||| (f[4].setWidth 20 <<< 8) ||| f[5].setWidth 20

/-- `RAW_RH[19:0]` and `RAW_T[19:0]`, as a natural (`41_scale.md` R120). -/
def raw20 (r : BitVec 32) : Nat := (r.extractLsb' 0 20).toNat

/-! ## CRC-8 (`42_crc.md`) -/

/-- One of the eight shifts of the CRC step (`42_crc.md` R140). -/
def crc8Shift (c : BitVec 8) : BitVec 8 :=
  if c.getLsbD 7 then (c <<< 1) ^^^ 0x31 else c <<< 1

/-- `n` shifts. -/
def crc8Shifts : Nat → BitVec 8 → BitVec 8
  | 0, c => c
  | n + 1, c => crc8Shifts n (crc8Shift c)

/-- `crc8_step(c, b)` (`42_crc.md` R140). -/
def crc8Step (c b : BitVec 8) : BitVec 8 := crc8Shifts 8 (c ^^^ b)

/-- `crc8(bytes)`: initial value 0xFF, no final XOR (`42_crc.md` R141). -/
def crc8 (bytes : List (BitVec 8)) : BitVec 8 := bytes.foldl crc8Step 0xFF

/-- The CRC window of a profile (`42_crc.md` R144): bytes 0 to 5, or bytes 1 to 6. -/
def crcWindow (profile : Bool) (f : Vector (BitVec 8) 7) : List (BitVec 8) :=
  if profile then [f[1], f[2], f[3], f[4], f[5], f[6]] else [f[0], f[1], f[2], f[3], f[4], f[5]]

/-- The checksum byte of a profile (`42_crc.md` R144): byte 6, or byte 0. -/
def crcReceived (profile : Bool) (f : Vector (BitVec 8) 7) : BitVec 8 :=
  if profile then f[0] else f[6]

/-! ## Scaling (`41_scale.md` R120 to R123) -/

/-- `toF64(n / 2^k)`: the binary64 encoding of a dyadic rational, exact for `|n| < 2^53` (`00_scope.md` R16, `41_scale.md`
R121); bit 63 sign, bits 62:52 exponent biased by 1023, bits 51:0 fraction (R122); zero is +0.0 (R121). The leading bit
of `|n|` has weight `2^(e - k)`, and the bits below it are the fraction. -/
def f64OfDyadic (n : Int) (k : Nat) : BitVec 64 :=
  if n = 0 then 0
  else
    let m := n.natAbs
    let e := m.log2
    BitVec.ofBool (decide (n < 0)) ++ BitVec.ofNat 11 (e + 1023 - k) ++ BitVec.ofNat 52 (m * 2 ^ (52 - e) - 2 ^ 52)

/-- `toF64( rh * 100 / 2^20 )` (`41_scale.md` R120, R122). -/
def humidityF64 (rh : Nat) : BitVec 64 := f64OfDyadic (rh * 100 : Int) 20

/-- `toF64( t * 200 / 2^20 - 50 )`, over the common denominator `2^20` (`41_scale.md` R120, R123). -/
def temperatureF64 (t : Nat) : BitVec 64 := f64OfDyadic (t * 200 - 50 * 2 ^ 20 : Int) 20

/-! ## Rounding (`41_scale.md` R126 to R130) -/

/-- Humidity in whole percent: nearest with halves up, or truncated under `HUM_RND = 1` (`41_scale.md` R126, R127). -/
def humidityPercent (humRnd : Bool) (rh : Nat) : BitVec 8 :=
  let nh := rh * 100
  BitVec.ofNat 8 (if humRnd then nh / 2 ^ 20 else (nh + 2 ^ 19) / 2 ^ 20)

/-- Temperature in tenths of a degree, nearest with halves away from zero, as 16-bit two's complement (`41_scale.md`
R126, R129). -/
def temperatureTenths (t : Nat) : BitVec 16 :=
  let nt : Int := t * 2000 - 500 * 2 ^ 20
  BitVec.ofInt 16 (nt.sign * ((nt.natAbs + 2 ^ 19) / 2 ^ 20 : Nat))

end Sys2Proof.Machine
end

