-- ==== Sys2Proof/Machine/Crc.lean ====
section
/-! DEFINITION. The CRC-8 validator (`42_crc.md`): CRC_INIT, CRC_BYTE and CHECK. -/

namespace Sys2Proof.Machine

/-- Recording a frame check: CRC_CALC, CRC_RECV, CRC_OK and V_CRC, with the window and the checksum byte CRC_PROFILE
selects (`42_crc.md` R144). A mismatch is a result, not an error (R146). -/
def recordCheck (s : State) : State :=
  let c := crc8 (crcWindow s.crcProfile s.frame)
  let r := crcReceived s.crcProfile s.frame
  { s with
    crcCalc := c
    crcRecv := r
    flags := crcFlag (c == r) s.flags
    valid := setValid vCrcMask s.valid }

/-- `CRC_INIT` (`42_crc.md` R142). -/
def execCrcInit (s : State) : Host.Outcome State Fault Refusal := .next { s with crcAcc := 0xFF }

/-- `CRC_BYTE imm` (`42_crc.md` R143). -/
def execCrcByte (imm : Byte) (s : State) : Host.Outcome State Fault Refusal :=
  .next { s with crcAcc := crc8Step s.crcAcc imm }

/-- `CHECK` (`42_crc.md` R144). -/
def execCheck (s : State) : Host.Outcome State Fault Refusal :=
  if s.loaded7 then .next (recordCheck s)
  else .next (raiseError .frameNotLoaded (encode .check) s)

end Sys2Proof.Machine
end

