-- ==== Sys2Proof/Machine/FrameDecode.lean ====
section
/-! DEFINITION. The frame decoder (`40_decode.md`): STAT and DECODE. -/

namespace Sys2Proof.Machine

/-- Recording a status byte: STATUS_RAW, BUSY, CAL and V_STAT (`40_decode.md` R100, R104). -/
def decodeStatus (status : BitVec 8) (s : State) : State :=
  { s with
    statusRaw := status
    flags := statusFlags status s.flags
    valid := setValid vStatMask s.valid }

/-- Recording the raw fields: RAW_RH, RAW_T and V_RAW (`40_decode.md` R104). -/
def decodeRaw (rh t : BitVec 20) (s : State) : State :=
  { s with
    rawRh := rh.setWidth 32
    rawT := t.setWidth 32
    valid := setValid vRawMask s.valid }

/-- `STAT imm` (`40_decode.md` R100). -/
def execStat (imm : Byte) (s : State) : Host.Outcome State Fault Refusal := .next (decodeStatus imm s)

/-- `DECODE` (`40_decode.md` R104). -/
def execDecode (s : State) : Host.Outcome State Fault Refusal :=
  if s.loaded6 then
    .next (decodeRaw (frameRh s.frame) (frameT s.frame) (decodeStatus (frameStatus s.frame) s))
  else
    .next (raiseError .frameNotLoaded (encode .decode) s)

end Sys2Proof.Machine
end

