-- ==== Sys2Proof/Machine/Scale.lean ====
section
/-! DEFINITION. Scaling and rounding (`41_scale.md`): SCALE and ROUND. -/

namespace Sys2Proof.Machine

/-- Recording the scaled values of raw fields `rh` and `t`: HUM_F64, TEMP_F64 and V_SCALE (`41_scale.md` R120). -/
def recordScaled (rh t : Nat) (s : State) : State :=
  { s with
    humF64 := humidityF64 rh
    tempF64 := temperatureF64 t
    valid := setValid vScaleMask s.valid }

/-- Recording the rounded values of raw fields `rh` and `t`: HUM_PCT, TEMP_DECI and V_ROUND (`41_scale.md` R126). -/
def recordRounded (rh t : Nat) (s : State) : State :=
  { s with
    humPct := humidityPercent s.humRnd rh
    tempDeci := temperatureTenths t
    valid := setValid vRoundMask s.valid }

/-- `SCALE` (`41_scale.md` R120). -/
def execScale (s : State) : Host.Outcome State Fault Refusal :=
  if s.vRaw then .next (recordScaled (raw20 s.rawRh) (raw20 s.rawT) s)
  else .next (raiseError .rawNotReady (encode .scale) s)

/-- `ROUND` (`41_scale.md` R126). -/
def execRound (s : State) : Host.Outcome State Fault Refusal :=
  if s.vRaw then .next (recordRounded (raw20 s.rawRh) (raw20 s.rawT) s)
  else .next (raiseError .rawNotReady (encode .round) s)

end Sys2Proof.Machine
end

