-- ==== Sys2Proof/Machine/Measure.lean ====
section
/-! DEFINITION. The combined measurement operation (`43_control.md` R162): MEASURE. -/

namespace Sys2Proof.Machine

/-- All of a measurement of a frame: the parts decode, check, scale and round write registers of their own and read
FRAME and CONFIG, which none writes; scale and round take the raw values of this step (`43_control.md` R162). -/
def measureFrame (s : State) : State :=
  let rh := frameRh s.frame
  let t := frameT s.frame
  recordRounded rh.toNat t.toNat
    (recordScaled rh.toNat t.toNat (recordCheck (decodeRaw rh t (decodeStatus (frameStatus s.frame) s))))

/-- `MEASURE` (`43_control.md` R162). -/
def execMeasure (s : State) : Host.Outcome State Fault Refusal :=
  if s.loaded7 then .next (measureFrame s)
  else .next (raiseError .frameNotLoaded (encode .measure) s)

end Sys2Proof.Machine
end

