-- ==== Sys2Proof/Machine/Dispatch.lean ====
section
/-! DEFINITION. The meaning of every command, one arm per constructor (`30_encoding.md` R74). -/

namespace Sys2Proof.Machine

def exec (i : Instr) (s : State) : Host.Outcome State Fault Refusal :=
  match i with
  | .nop => Sys2Proof.Machine.execNop s
  | .clear => Sys2Proof.Machine.execClear s
  | .stat imm => Sys2Proof.Machine.execStat imm s
  | .decode => Sys2Proof.Machine.execDecode s
  | .scale => Sys2Proof.Machine.execScale s
  | .round => Sys2Proof.Machine.execRound s
  | .crcInit => Sys2Proof.Machine.execCrcInit s
  | .crcByte imm => Sys2Proof.Machine.execCrcByte imm s
  | .check => Sys2Proof.Machine.execCheck s
  | .measure => Sys2Proof.Machine.execMeasure s

end Sys2Proof.Machine
end

