-- ==== Sys2Proof/Machine/HostAccess.lean ====
section
/-! DEFINITION. Host accesses and reset: `MemRead`, `MemWrite` (`20_memory.md` R54, R55) and the events of the two
agents (`00_scope.md` R19, `70_reset_and_hazards.md` R201). -/

namespace Sys2Proof.Machine

/-- A write of the word `w` to CMD: decode it and perform the command, or record why it is refused, with the word as
detail (`10_state.md` R23, `30_encoding.md` R72). -/
def performCommand (w : Word16) (s : State) : Host.Outcome State Fault Refusal :=
  match decode w with
  | .ok i => exec i s
  | .error e => .next (raiseError (decodeCause e) w s)

/-- The value `MemRead(addr, n)` returns: a refused read returns 0 of its width (`20_memory.md` R54, R56). -/
def readValue (addr : Byte) (n : Width) (s : State) : Data :=
  match admitted addr n with
  | none => Data.ofBits n 0
  | some r => s.readReg r

/-- The effect of `MemRead(addr, n)` on the registers: none, but that a refused read records BAD_ACCESS
(`20_memory.md` R54). -/
def readEffect (addr : Byte) (n : Width) (s : State) : State :=
  match admitted addr n with
  | none => raiseError .badAccess (accessInfo n addr) s
  | some _ => s

/-- `MemRead(addr, n)`, with the value it returns put in the host's record (`20_memory.md` R54; log entry 3). -/
def memRead (addr : Byte) (n : Width) (s : State) : State :=
  recordRead (readValue addr n s) (readEffect addr n s)

/-- `MemWrite(addr, n, v)`: BAD_ACCESS is checked before READ_ONLY (`20_memory.md` R55, `60_exceptions.md` R186). -/
def memWrite (addr : Byte) (v : Data) (s : State) : Host.Outcome State Fault Refusal :=
  match admitted addr v.width with
  | none => .next (raiseError .badAccess (accessInfo v.width addr) s)
  | some r =>
    match r.writeTarget with
    | none => .next (raiseError .readOnly (accessInfo v.width addr) s)
    | some .command => performCommand (v.bits.setWidth 16) s
    | some .config => .next (writeConfig (v.bits.setWidth 8) s)
    | some (.frame i) => .next (writeFrame i (v.bits.setWidth 8) s)

/-- What the host's read of width `n` returns when a reset overlaps it: a free value (`70_reset_and_hazards.md` R201,
I7; log entry 4). -/
def readOverReset (n : Width) (s : State) : State :=
  { recordRead (Data.ofBits n (Config.readDuringReset s.freeCount)) s with freeCount := s.freeCount + 1 }

/-- One event of an agent. A reset that overlaps an access wins, and the access has no effect
(`70_reset_and_hazards.md` R201). -/
def applyEvent (e : HostEvent) (s : State) : Host.Outcome State Fault Refusal :=
  match e with
  | .access (.read addr n) => .next (memRead addr n s)
  | .access (.write addr v) => memWrite addr v s
  | .reset => .next (resetBlock s)
  | .resetOver (.read _ n) => .next (readOverReset n (resetBlock s))
  | .resetOver (.write _ _) => .next (resetBlock s)

/-- The host's write of a command word to CMD (`10_state.md` R22, R23). -/
def commandWrite (w : Word16) : HostEvent := .access (.write Reg.cmd.offset (.b2 w))

end Sys2Proof.Machine
end

