-- ==== Sys2Proof/Machine/Step.lean ====
section
/-! DEFINITION. One step: the next event the host or the reset input has placed (`20_memory.md` R60, R61). -/

namespace Sys2Proof.Machine

/-- Perform the oldest pending event, whole. With none pending the block is idle and nothing changes: "The block has no
step of its own" (`00_scope.md` R19; log entry 2). -/
def step (s : State) : Host.Outcome State Fault Refusal :=
  match s.pending with
  | [] => .next s
  | e :: rest => applyEvent e { s with pending := rest }

/-- `s` with the host about to write the command word of an opcode-table row to CMD, before anything else it has still
to issue (log entries 1 and 9). -/
def State.withFetchWord (s : State) (nbits w : Nat) : State :=
  { s with pending := commandWrite (tableWord nbits w) :: s.pending }

end Sys2Proof.Machine
end

