-- ==== Sys2Proof/WellFormed.lean ====
section
/-! DEFINITION. Well-formed host-program lines (`30_encoding.md` R78, R79).
Every term of `Instr`, `Access` and `HostEvent` is well-formed by its type (an immediate is a byte, an offset is a
byte, a value has the width of its access), so the checks are on the lines a host program is written in. -/

namespace Sys2Proof

/-- The values a width holds. -/
def Width.holds (n : Width) (v : Nat) : Bool := decide (v < 2 ^ (8 * n.bytes.toNat))

/-- A byte operand. -/
def isByte (v : Nat) : Bool := decide (v < 256)

/-- R78: a written value fits the register or the access width, an offset and an immediate are bytes, "a mnemonic with
an immediate requires one"; R79: LOADFRAME has seven bytes, CRCRUN at least one. -/
def Line.wf : Line → Bool
  | .wr r value => r.width.holds value
  | .rd r expect => expect.all r.width.holds
  | .cmd m imm => (imm.isSome || !m.takesImm) && imm.all isByte
  | .wrRaw n offset value => isByte offset && n.holds value
  | .rdRaw _ offset => isByte offset
  | .loadFrame bytes => bytes.length == 7 && bytes.all isByte
  | .crcRun bytes => !bytes.isEmpty && bytes.all isByte
  | .poll status => isByte status

end Sys2Proof
end

