-- ==== Sys2Proof/Machine/HostProgram.lean ====
section
/-! DEFINITION. Host programs: the accesses a line stands for (`30_encoding.md` R78, R79) and loading them as the
events the host is about to issue (log entries 1 and 10). -/

namespace Sys2Proof.Machine

/-- `WR <reg>, <value>` is `MemWrite(offset(reg), width(reg), value)` (`30_encoding.md` R78). -/
def writeAccess (r : Reg) (value : Nat) : Access := .write r.offset (Data.ofBits r.width (BitVec.ofNat 64 value))

/-- `RD <reg>` is `MemRead(offset(reg), width(reg))` (`30_encoding.md` R78). -/
def readAccess (r : Reg) : Access := .read r.offset r.width

/-- `CMD <mnemonic> <imm>` is `MemWrite(0x00, 2, encode(mnemonic, imm))`, with `imm = 0` when absent (R78). -/
def commandAccess (m : Mnemonic) (imm : Nat) : Access := .write 0x00 (.b2 (encodeWord m (BitVec.ofNat 8 imm)))

/-- `LOADFRAME b0, …, b6`: a write of each byte to its frame register, in increasing index (`30_encoding.md` R79). -/
def loadFrameAccesses (bytes : List Nat) : List Access :=
  ([0, 1, 2, 3, 4, 5, 6].zip bytes).map fun p => writeAccess (.frame p.1) p.2

/-- The accesses a line stands for (`30_encoding.md` R78, R79); meant for well-formed lines. -/
def lineAccesses : Line → List Access
  | .wr r value => [writeAccess r value]
  | .rd r _ => [readAccess r]
  | .cmd m imm => [commandAccess m (imm.getD 0)]
  | .wrRaw n offset value => [.write (BitVec.ofNat 8 offset) (Data.ofBits n (BitVec.ofNat 64 value))]
  | .rdRaw n offset => [.read (BitVec.ofNat 8 offset) n]
  | .loadFrame bytes => loadFrameAccesses bytes
  | .crcRun bytes => commandAccess .crcInit 0 :: bytes.map (commandAccess .crcByte)
  | .poll status => [commandAccess .stat status, readAccess .flags]

/-- The accesses of a program; a program with an ill-formed line has none. -/
def assemble (p : List Line) : Option (List Access) :=
  if p.all Line.wf then some (p.flatMap lineAccesses) else none

/-- Placing accesses as what the host issues next, after what it has still to issue. -/
def loadProgram (accesses : List Access) (s : State) : State :=
  { s with pending := s.pending ++ accesses.map HostEvent.access }

/-- What a program's lines expect their reads to return, in order: `none` where a line states nothing (R78). -/
def lineExpects : Line → List (Option Nat)
  | .rd _ expect => [expect]
  | .rdRaw _ _ | .poll _ => [none]
  | .wr _ _ | .cmd _ _ | .wrRaw _ _ _ | .loadFrame _ | .crcRun _ => []

/-- Do the values the reads returned agree with what the lines expect? -/
def readsAsExpected : List (Option Nat) → List Data → Bool
  | [], [] => true
  | none :: es, _ :: ds => readsAsExpected es ds
  | some v :: es, d :: ds => d.bits.toNat == v && readsAsExpected es ds
  | [], _ :: _ => false
  | _ :: _, [] => false

end Sys2Proof.Machine
end

