-- ==== Sys2Proof/Safety.lean ====
section
/-! DEFINITION. The terms claims are stated in: what counts as a safe run, and the spec's tables and number formats
written out again from the spec, apart from the model's own functions. -/

namespace Sys2Proof.Machine

/-! ## The tables of the spec -/

/-- The `match` column of R74. -/
def rowMatch : Mnemonic → BitVec 16
  | .nop => 0x0000 | .clear => 0x0001 | .stat => 0x0010 | .decode => 0x0011 | .scale => 0x0020 | .round => 0x0021
  | .crcInit => 0x0030 | .crcByte => 0x0031 | .check => 0x0032 | .measure => 0x0040

/-- The `mask` column of R74. -/
def rowMask : Mnemonic → BitVec 16
  | .stat | .crcByte => 0x00FF
  | .nop | .clear | .decode | .scale | .round | .crcInit | .check | .measure => 0xFFFF

/-- The assigned values of `op` (R74) and those of them that take an immediate. -/
def assignedOps : List Nat := [0x00, 0x01, 0x10, 0x11, 0x20, 0x21, 0x30, 0x31, 0x32, 0x40]
def immOps : List Nat := [0x10, 0x31]

/-- The valid bits a performed operation sets (`10_state.md` R44). -/
def validBitsSet : Mnemonic → List Nat
  | .stat => [0]
  | .decode => [0, 1]
  | .check => [2]
  | .scale => [3]
  | .round => [4]
  | .measure => [0, 1, 2, 3, 4]
  | .nop | .clear | .crcInit | .crcByte => []

/-- The offset and width of every register of `10_state.md` R22, with the value a host read of it returns (CMD reads
0x0000, R23). -/
def registerRows (s : State) : List (BitVec 8 × Data) :=
  [(0x00, .b2 0x0000), (0x02, .b1 s.config), (0x03, .b1 s.err), (0x04, .b2 s.errInfo), (0x06, .b1 s.valid),
   (0x07, .b1 s.frameVld), (0x08, .b1 s.frame[0]), (0x09, .b1 s.frame[1]), (0x0A, .b1 s.frame[2]),
   (0x0B, .b1 s.frame[3]), (0x0C, .b1 s.frame[4]), (0x0D, .b1 s.frame[5]), (0x0E, .b1 s.frame[6])] ++
  [(0x0F, .b1 s.crcAcc), (0x10, .b1 s.statusRaw), (0x11, .b1 s.flags), (0x12, .b1 s.crcCalc), (0x13, .b1 s.crcRecv),
   (0x14, .b4 s.rawRh), (0x18, .b4 s.rawT), (0x1C, .b1 s.humPct), (0x1E, .b2 s.tempDeci), (0x20, .b8 s.humF64),
   (0x28, .b8 s.tempF64)]

/-- Is there a register at the offset with this width (`20_memory.md` R53)? -/
def isRegister (addr : BitVec 8) (n : Width) : Bool :=
  (registerRows State.reset).any fun row => row.1 == addr && row.2.width == n

/-- The offsets of the registers marked W or RW in `10_state.md` R22: CMD, CONFIG, FRAME0 to FRAME6. -/
def isHostWritable (addr : BitVec 8) : Bool :=
  addr == 0x00 || addr == 0x02 || (0x08 ≤ addr.toNat && addr.toNat ≤ 0x0E)

/-- The table of `42_crc.md` R149, row 0x00 to row 0xF0. -/
def crcTable : List (BitVec 8) :=
  [0x00, 0x31, 0x62, 0x53, 0xC4, 0xF5, 0xA6, 0x97, 0xB9, 0x88, 0xDB, 0xEA, 0x7D, 0x4C, 0x1F, 0x2E] ++
  ([0x43, 0x72, 0x21, 0x10, 0x87, 0xB6, 0xE5, 0xD4, 0xFA, 0xCB, 0x98, 0xA9, 0x3E, 0x0F, 0x5C, 0x6D] ++
  ([0x86, 0xB7, 0xE4, 0xD5, 0x42, 0x73, 0x20, 0x11, 0x3F, 0x0E, 0x5D, 0x6C, 0xFB, 0xCA, 0x99, 0xA8] ++
  ([0xC5, 0xF4, 0xA7, 0x96, 0x01, 0x30, 0x63, 0x52, 0x7C, 0x4D, 0x1E, 0x2F, 0xB8, 0x89, 0xDA, 0xEB] ++
  ([0x3D, 0x0C, 0x5F, 0x6E, 0xF9, 0xC8, 0x9B, 0xAA, 0x84, 0xB5, 0xE6, 0xD7, 0x40, 0x71, 0x22, 0x13] ++
  ([0x7E, 0x4F, 0x1C, 0x2D, 0xBA, 0x8B, 0xD8, 0xE9, 0xC7, 0xF6, 0xA5, 0x94, 0x03, 0x32, 0x61, 0x50] ++
  ([0xBB, 0x8A, 0xD9, 0xE8, 0x7F, 0x4E, 0x1D, 0x2C, 0x02, 0x33, 0x60, 0x51, 0xC6, 0xF7, 0xA4, 0x95] ++
  ([0xF8, 0xC9, 0x9A, 0xAB, 0x3C, 0x0D, 0x5E, 0x6F, 0x41, 0x70, 0x23, 0x12, 0x85, 0xB4, 0xE7, 0xD6] ++
  ([0x7A, 0x4B, 0x18, 0x29, 0xBE, 0x8F, 0xDC, 0xED, 0xC3, 0xF2, 0xA1, 0x90, 0x07, 0x36, 0x65, 0x54] ++
  ([0x39, 0x08, 0x5B, 0x6A, 0xFD, 0xCC, 0x9F, 0xAE, 0x80, 0xB1, 0xE2, 0xD3, 0x44, 0x75, 0x26, 0x17] ++
  ([0xFC, 0xCD, 0x9E, 0xAF, 0x38, 0x09, 0x5A, 0x6B, 0x45, 0x74, 0x27, 0x16, 0x81, 0xB0, 0xE3, 0xD2] ++
  ([0xBF, 0x8E, 0xDD, 0xEC, 0x7B, 0x4A, 0x19, 0x28, 0x06, 0x37, 0x64, 0x55, 0xC2, 0xF3, 0xA0, 0x91] ++
  ([0x47, 0x76, 0x25, 0x14, 0x83, 0xB2, 0xE1, 0xD0, 0xFE, 0xCF, 0x9C, 0xAD, 0x3A, 0x0B, 0x58, 0x69] ++
  ([0x04, 0x35, 0x66, 0x57, 0xC0, 0xF1, 0xA2, 0x93, 0xBD, 0x8C, 0xDF, 0xEE, 0x79, 0x48, 0x1B, 0x2A] ++
  ([0xC1, 0xF0, 0xA3, 0x92, 0x05, 0x34, 0x67, 0x56, 0x78, 0x49, 0x1A, 0x2B, 0xBC, 0x8D, 0xDE, 0xEF] ++
   [0x82, 0xB3, 0xE0, 0xD1, 0x46, 0x77, 0x24, 0x15, 0x3B, 0x0A, 0x59, 0x68, 0xFF, 0xCE, 0x9D, 0xAC]))))))))))))))

/-! ## Runs -/

/-- Commands performed one after another with nothing in between (`43_control.md` R163). -/
def runCommands : List Instr → State → Host.Outcome State Fault Refusal
  | [], s => .next s
  | i :: is, s =>
    match exec i s with
    | .next t => runCommands is t
    | .fault r => .fault r
    | .refused r => .refused r

/-- `n` steps of the machine. -/
def runSteps : Nat → State → Host.Outcome State Fault Refusal
  | 0, s => .next s
  | n + 1, s =>
    match step s with
    | .next t => runSteps n t
    | .fault r => .fault r
    | .refused r => .refused r

/-! ## Errors -/

/-- `t` is `s` with the error `code`, `info` recorded and nothing else changed (`60_exceptions.md` R184): the first error
is kept with its detail, a later one only sets MULTI, bit 7. -/
def ErrorRecorded (code : BitVec 4) (info : BitVec 16) (s t : State) : Prop :=
  t = { s with err := t.err, errInfo := t.errInfo } ∧
  (s.err.extractLsb' 0 4 = 0 →
    t.err.extractLsb' 0 4 = code ∧ t.err.extractLsb' 4 4 = s.err.extractLsb' 4 4 ∧ t.errInfo = info) ∧
  (s.err.extractLsb' 0 4 ≠ 0 →
    (∀ j < 8, t.err.getLsbD j = (s.err.getLsbD j || j == 7)) ∧ t.errInfo = s.errInfo)

/-- Every word of the operation `op` with a non-zero immediate is refused with RESERVED_IMM, code 2, the word as
detail (`30_encoding.md` R76). -/
def ReservedImmRefused (op : BitVec 8) : Prop :=
  ∀ (imm : BitVec 8) (s : State), imm ≠ 0 →
    ∃ t, performCommand (imm ++ op) s = .next t ∧ ErrorRecorded 2 (imm ++ op) s t

/-- "A claim that a host program ran without error is the statement `ERR = 0x00`" (`60_exceptions.md` R189). -/
def ErrorFree (s : State) : Prop := s.err = 0x00

/-- Does the state meet the conditions on which the operation is performed and not refused (`60_exceptions.md` R181,
FRAME_NOT_LOADED and RAW_NOT_READY)? -/
def isPerformed (m : Mnemonic) (s : State) : Bool :=
  match m with
  | .decode => s.frameVld.extractLsb' 0 6 == 0b111111#6
  | .check | .measure => s.frameVld.extractLsb' 0 7 == 0b1111111#7
  | .scale | .round => s.valid.getLsbD 1
  | .nop | .clear | .stat | .crcInit | .crcByte => true

/-- The cause a host write records, by the priority of `60_exceptions.md` R186; 0 when the write is performed. -/
def writeCause (addr : BitVec 8) (v : Data) (s : State) : BitVec 4 :=
  let word := v.bits.toNat
  let op := word % 256
  let imm := word / 256
  if !isRegister addr v.width then 5
  else if !isHostWritable addr then 6
  else if addr != 0x00 then 0
  else if !assignedOps.contains op then 1
  else if !immOps.contains op && imm != 0 then 2
  else if op == 0x11 && s.frameVld.extractLsb' 0 6 != 0b111111#6 then 3
  else if (op == 0x32 || op == 0x40) && s.frameVld.extractLsb' 0 7 != 0b1111111#7 then 3
  else if (op == 0x20 || op == 0x21) && !s.valid.getLsbD 1 then 4
  else 0

/-- The cause an access records, 0 when it is accepted (`60_exceptions.md` R181, R186). -/
def refusalCause (a : Access) (s : State) : BitVec 4 :=
  match a with
  | .read addr n => if isRegister addr n then 0 else 5
  | .write addr v => writeCause addr v s

/-- The detail of a refused access (`60_exceptions.md` R181): the command word for a word written to CMD, else the width
in bytes and the offset. -/
def refusalInfo : Access → BitVec 16
  | .read addr n => n.bytes ++ addr
  | .write addr v => if addr = 0x00 ∧ v.width = .w2 then v.bits.setWidth 16 else v.width.bytes ++ addr

/-- Is the event one after which the record of errors may be gone: a reset, or the command CLEAR (`60_exceptions.md`
R189, `43_control.md` R161)? -/
def clearsErrors : HostEvent → Bool
  | .access (.write addr v) => addr == 0x00 && v == .b2 0x0001
  | .access (.read _ _) => false
  | .reset | .resetOver _ => true

/-! ## Invariants and reachable states -/

/-- The register invariants of `10_state.md` R48. -/
structure RegInv (s : State) : Prop where
  config_reserved : s.config.extractLsb' 2 6 = 0
  err_reserved : s.err.extractLsb' 4 3 = 0
  cause_known : (s.err.extractLsb' 0 4).toNat ≤ 6
  multi_cause : s.err.getLsbD 7 = true → s.err.extractLsb' 0 4 ≠ 0
  info_cause : s.err.extractLsb' 0 4 = 0 → s.errInfo = 0
  valid_reserved : s.valid.extractLsb' 5 3 = 0
  frameVld_reserved : s.frameVld.getLsbD 7 = false
  flags_reserved : s.flags.extractLsb' 3 5 = 0
  rawRh_reserved : s.rawRh.extractLsb' 20 12 = 0
  rawT_reserved : s.rawT.extractLsb' 20 12 = 0
  status_flags : s.valid.getLsbD 0 = true →
    s.flags.getLsbD 0 = s.statusRaw.getLsbD 7 ∧ s.flags.getLsbD 1 = s.statusRaw.getLsbD 3
  humPct_range : s.humPct.toNat ≤ 100
  tempDeci_range : -500 ≤ s.tempDeci.toInt ∧ s.tempDeci.toInt ≤ 1500
  crc_flag : s.valid.getLsbD 2 = true → s.flags.getLsbD 2 = decide (s.crcCalc = s.crcRecv)

/-- "While a valid bit is 0 its registers hold their reset values" (`10_state.md` R28); the same of a frame byte and its
FRAME_VLD bit (R29, R30). -/
structure UnsetInv (s : State) : Prop where
  stat : s.valid.getLsbD 0 = false → s.statusRaw = 0 ∧ s.flags.getLsbD 0 = false ∧ s.flags.getLsbD 1 = false
  raw : s.valid.getLsbD 1 = false → s.rawRh = 0 ∧ s.rawT = 0
  crc : s.valid.getLsbD 2 = false → s.crcCalc = 0 ∧ s.crcRecv = 0 ∧ s.flags.getLsbD 2 = false
  scale : s.valid.getLsbD 3 = false → s.humF64 = 0 ∧ s.tempF64 = 0
  round : s.valid.getLsbD 4 = false → s.humPct = 0 ∧ s.tempDeci = 0
  frame : ∀ i : Fin 7, s.frameVld.getLsbD i.val = false → s.frame[i] = 0

/-- The states a run can reach: from the reset state, whatever the agents then do and whatever the free values are. -/
inductive Reachable : State → Prop where
  | start (events : List HostEvent) (k : Nat) : Reachable { State.reset with pending := events, freeCount := k }
  | next (s t : State) : Reachable s → step s = .next t → Reachable t

/-- Every register of `t` holds its reset value (`70_reset_and_hazards.md` R200). -/
def AtReset (t : State) : Prop :=
  t.config = 0x00 ∧ t.err = 0x00 ∧ t.errInfo = 0x0000 ∧ t.valid = 0x00 ∧ t.frameVld = 0x00 ∧
  t.frame = #v[0x00, 0x00, 0x00, 0x00, 0x00, 0x00, 0x00] ∧ t.crcAcc = 0xFF ∧ t.statusRaw = 0x00 ∧ t.flags = 0x00 ∧
  t.crcCalc = 0x00 ∧ t.crcRecv = 0x00 ∧ t.rawRh = 0x00000000 ∧ t.rawT = 0x00000000 ∧ t.humPct = 0x00 ∧
  t.tempDeci = 0x0000 ∧ t.humF64 = 0x0000000000000000 ∧ t.tempF64 = 0x0000000000000000

/-! ## Numbers (`00_scope.md` R16, `41_scale.md` R122) -/

/-- The exponent field of a binary64 encoding, bits 62:52. -/
def f64Exponent (v : BitVec 64) : Nat := (v.extractLsb' 52 11).toNat

/-- The rational a finite binary64 encoding stands for: sign bit 63, exponent biased by 1023, 52 fraction bits with an
implicit leading one where the exponent field is not 0. -/
def f64Value (v : BitVec 64) : ℚ :=
  let sign : ℚ := if v.getLsbD 63 then -1 else 1
  let fraction : ℚ := (v.extractLsb' 0 52).toNat
  if f64Exponent v = 0 then sign * fraction * (2 : ℚ) ^ (-1074 : ℤ)
  else sign * (2 ^ 52 + fraction) * (2 : ℚ) ^ ((f64Exponent v : ℤ) - 1075)

/-- +0.0 or a normal number: not −0.0, subnormal, infinite or NaN (`41_scale.md` R121). -/
def F64NormalOrZero (v : BitVec 64) : Prop := v = 0 ∨ (0 < f64Exponent v ∧ f64Exponent v < 2047)

/-- The humidity of a raw field: `rawRH * 100 / 2^20` (`41_scale.md` R122). -/
def humidityOf (rh : Nat) : ℚ := rh * 100 / 2 ^ 20

/-- The temperature of a raw field: `rawT * 200 / 2^20 - 50` (`41_scale.md` R123). -/
def temperatureOf (t : Nat) : ℚ := t * 200 / 2 ^ 20 - 50

/-- `round_half_up(q) = floor(q + 1/2)` (`00_scope.md` R16). -/
def roundHalfUp (q : ℚ) : ℤ := ⌊q + 1 / 2⌋

/-- `round_half_away(q) = sign(q) · floor(|q| + 1/2)` (`00_scope.md` R16). -/
def roundHalfAway (q : ℚ) : ℤ := (if q < 0 then -1 else if q = 0 then 0 else 1) * ⌊|q| + 1 / 2⌋

/-- The humidity in whole percent under a value of HUM_RND (`41_scale.md` R127). -/
def percentOf (humRnd : Bool) (q : ℚ) : ℤ := if humRnd then ⌊q⌋ else roundHalfUp q

end Sys2Proof.Machine
end

