-- ==== Sys2Proof/Certificates/Slice0/Obligations.lean ====
section
/-! DEFINITION. The statements about the model, for the provers. Each docstring names the rule of the spec it
formalises; a statement about a command says, as one equation on the next state, what changes AND that nothing else
does. -/

open Sys2Proof Sys2Proof.Machine

/-! ## Encoding (`30_encoding.md`) -/

/-- R71, R72, R74, R78: decoding and encoding are inverse on every command word and every command, with every value of
the immediate: a word is performed as `i` exactly when it is the encoding of `i`. -/
def Obligations.DecodeIsInverseOfEncode : Prop :=
  ∀ (w : BitVec 16) (i : Instr), decode w = .ok i ↔ encode i = w

/-- R72, R75, R76: a word whose `op` is unassigned records ILLEGAL_OP (1), one with a non-zero immediate on an operation
without one RESERVED_IMM (2), each with the word as detail and nothing else changed; every other word performs an
operation, that of its `op` with its `imm`. -/
def Obligations.CommandWordsAreDecodedInOrder : Prop :=
  ∀ (w : BitVec 16) (s : State),
    (w.toNat % 256 ∉ assignedOps → ∃ t, performCommand w s = .next t ∧ ErrorRecorded 1 w s t) ∧
    (w.toNat % 256 ∈ assignedOps → w.toNat % 256 ∉ immOps → w.toNat / 256 ≠ 0 →
      ∃ t, performCommand w s = .next t ∧ ErrorRecorded 2 w s t) ∧
    (w.toNat % 256 ∈ assignedOps → (w.toNat % 256 ∈ immOps ∨ w.toNat / 256 = 0) →
      ∃ i : Instr, i.mnemonic.op.toNat = w.toNat % 256 ∧ i.imm.toNat = w.toNat / 256 ∧
        performCommand w s = exec i s)

/-- R74: a word selects a row of the opcode map when `w & mask = match`; the decoder reads the operation of exactly that
row, and at most one row matches any word. -/
def Obligations.OpcodeRowsSelectOperations : Prop :=
  ∀ (w : BitVec 16) (m : Mnemonic),
    ((∃ i, decode w = .ok i ∧ i.mnemonic = m) ↔ w &&& rowMask m = rowMatch m) ∧
    ∀ m', w &&& rowMask m = rowMatch m → w &&& rowMask m' = rowMatch m' → m = m'

/-- R77, the counts: of the 65536 command words 520 are performed, 2040 are refused with RESERVED_IMM and 62976 with
ILLEGAL_OP. -/
def Obligations.CommandWordCounts : Prop :=
  let words (imm : Nat) := (List.range 256).map fun op => decode (BitVec.ofNat 16 (imm * 256 + op))
  let count (p : Except DecodeError Instr → Bool) := ((List.range 256).map fun imm => (words imm).countP p).sum
  count (fun r => match r with | .ok _ => true | .error _ => false) = 520 ∧
  count (fun r => match r with | .error .reservedImm => true | _ => false) = 2040 ∧
  count (fun r => match r with | .error .illegalOp => true | _ => false) = 62976

/-- R74, R75, R76: words written out from the opcode map and the examples of the operation rules decode to what they
stand for. -/
def Obligations.WrittenOutWordsDecode : Prop :=
  decode 0x0000 = .ok .nop ∧ decode 0x0001 = .ok .clear ∧ decode 0x9810 = .ok (.stat 0x98) ∧
  decode 0x0011 = .ok .decode ∧ decode 0x0020 = .ok .scale ∧ decode 0x0021 = .ok .round ∧
  decode 0x0030 = .ok .crcInit ∧ decode 0x1C31 = .ok (.crcByte 0x1C) ∧ decode 0x0032 = .ok .check ∧
  decode 0x0040 = .ok .measure ∧ decode 0x0077 = .error .illegalOp ∧ decode 0x5502 = .error .illegalOp ∧
  decode 0x0100 = .error .reservedImm ∧ decode 0x0520 = .error .reservedImm

/-! ## Steps (`20_memory.md`, `60_exceptions.md`) -/

/-- R23, R60: when the host's next access writes to CMD a word that decodes to `i`, the step is `exec i`, with that
access taken off what the host has still to issue; and so runs the word `withFetchWord` places. -/
def Obligations.StepRunsDecodedCommand : Prop :=
  ∀ (s : State) (w : BitVec 16) (i : Instr), decode w = .ok i →
    (∀ rest, s.pending = .access (.write 0x00 (.b2 w)) :: rest → step s = exec i { s with pending := rest }) ∧
    step (s.withFetchWord 16 w.toNat) = exec i s

/-- R19 (log entry 2): with no event to come the block is idle, and a step changes nothing. -/
def Obligations.IdleStepChangesNothing : Prop :=
  ∀ s : State, s.pending = [] → step s = .next s

/-- No access and no reset stops the block: every step from every state answers a next state. R60, R180 and R190 say
that the block goes on after each access and R19 that it changes only in one; that this makes a machine without faults is
log entry 12 (DEDUCED), that an idle step goes on unchanged log entry 2 (DEDUCED), and that a step takes exactly the
oldest event off `pending` log entry 1 (the model's DESIGN CHOICE), no words of those rules. -/
def Obligations.EveryStepGoesOn : Prop :=
  ∀ s : State, ∃ t, step s = .next t ∧ t.pending = s.pending.tail

/-! ## Control operations (`43_control.md`) -/

/-- R160: NOP changes nothing, and is the only command word that changes nothing in every state. -/
def Obligations.NopLeavesStateUnchanged : Prop :=
  ReservedImmRefused 0x00 ∧
  (∀ s : State, exec .nop s = .next s) ∧
  ∀ w : BitVec 16, (∀ s : State, performCommand w s = .next s) ↔ w = 0x0000

/-- R161: CLEAR returns every register but CONFIG to its reset value, in every state; it is the only command that makes
a recorded error go away. -/
def Obligations.ClearResetsAllButConfig : Prop :=
  ReservedImmRefused 0x01 ∧
  (∀ s : State, ∃ t, exec .clear s = .next t ∧ AtReset { t with config := 0x00 } ∧
    t.config = s.config ∧ t.pending = s.pending ∧ t.reads = s.reads ∧ t.freeCount = s.freeCount) ∧
  ∀ (i : Instr) (s : State), i ≠ .clear → ∃ t, exec i s = .next t ∧ (s.err ≠ 0 → t.err ≠ 0)

/-! ## The frame decoder (`40_decode.md`) -/

/-- R100: STAT, in every state and for every immediate: STATUS_RAW is the byte, BUSY its bit 7, CAL its bit 3, V_STAT is
set, every other flag, valid bit and register is unchanged. -/
def Obligations.StatDecodesStatusByte : Prop :=
  ∀ (imm : BitVec 8) (s : State), performCommand (imm ++ 0x10#8) s = exec (.stat imm) s ∧
    ∃ t, exec (.stat imm) s = .next t ∧
      t = { s with statusRaw := imm, flags := t.flags, valid := t.valid } ∧
      t.flags.getLsbD 0 = imm.getLsbD 7 ∧ t.flags.getLsbD 1 = imm.getLsbD 3 ∧
      (∀ j, 2 ≤ j → t.flags.getLsbD j = s.flags.getLsbD j) ∧
      ∀ j < 8, t.valid.getLsbD j = (s.valid.getLsbD j || j == 0)

/-- R104, R105, R106: DECODE with frame bytes 0 to 5 loaded decodes the status byte and both raw fields, and changes
nothing else; with one of them not loaded it records FRAME_NOT_LOADED and changes nothing else. -/
def Obligations.DecodeUnpacksFrame : Prop :=
  ReservedImmRefused 0x11 ∧
  (∀ s : State, s.frameVld.extractLsb' 0 6 ≠ 0b111111#6 →
    ∃ t, exec .decode s = .next t ∧ ErrorRecorded 3 0x0011 s t) ∧
  ∀ s : State, s.frameVld.extractLsb' 0 6 = 0b111111#6 →
    ∃ t, exec .decode s = .next t ∧
      t = { s with
        statusRaw := s.frame[0]
        flags := t.flags
        rawRh := BitVec.ofNat 32 (s.frame[1] ++ s.frame[2] ++ s.frame[3].extractLsb' 4 4).toNat
        rawT := BitVec.ofNat 32 (s.frame[3].extractLsb' 0 4 ++ s.frame[4] ++ s.frame[5]).toNat
        valid := t.valid } ∧
      t.flags.getLsbD 0 = s.frame[0].getLsbD 7 ∧ t.flags.getLsbD 1 = s.frame[0].getLsbD 3 ∧
      (∀ j, 2 ≤ j → t.flags.getLsbD j = s.flags.getLsbD j) ∧
      ∀ j < 8, t.valid.getLsbD j = (s.valid.getLsbD j || j == 0 || j == 1)

/-- R107: every pair of 20-bit values is what some frame's raw fields hold, and both fields are below 2^20. -/
def Obligations.RawFieldsTakeEveryValue : Prop :=
  ∀ rh t : Nat, (∃ f : Vector (BitVec 8) 7, (frameRh f).toNat = rh ∧ (frameT f).toNat = t) ↔
    (rh < 2 ^ 20 ∧ t < 2 ^ 20)

/-- R108: each bit of frame bytes 1 to 5 belongs to exactly one raw field: inverting it changes exactly one bit of
exactly one field, the bit `8 * (5 - i) + j` of the 40 bits `rawRH ++ rawT`; bytes 0 and 6 belong to neither. -/
def Obligations.FrameBitsBelongToOneField : Prop :=
  ∀ (f : Vector (BitVec 8) 7) (i : Fin 7) (j : Fin 8),
    let f' := f.set i (f[i] ^^^ BitVec.twoPow 8 j)
    ((frameRh f' ++ frameT f') ^^^ (frameRh f ++ frameT f)) =
      if 1 ≤ i.val ∧ i.val ≤ 5 then BitVec.twoPow 40 (8 * (5 - i.val) + j.val) else 0#40

/-- R109: the field positions do not depend on CONFIG: DECODE under another profile decodes the same values. -/
def Obligations.FieldPositionsIgnoreProfile : Prop :=
  ∀ (s : State) (c : BitVec 8), s.frameVld.extractLsb' 0 6 = 0b111111#6 →
    ∃ t, exec .decode s = .next t ∧ exec .decode { s with config := c } = .next { t with config := c }

/-! ## Scaling and rounding (`41_scale.md`) -/

/-- R120 to R123: SCALE with V_RAW set writes the binary64 encodings of exactly `rawRH * 100 / 2^20` and
`rawT * 200 / 2^20 - 50`, each +0.0 or a normal number (R121), and sets V_SCALE, for every raw value; it changes nothing
else. With V_RAW clear it records RAW_NOT_READY and changes nothing else. Which number an encoding stands for
(`f64Value`) is log entry 11 (PRESUMED; R122 marks the layout as general knowledge). -/
def Obligations.ScaleIsExact : Prop :=
  ReservedImmRefused 0x20 ∧
  (∀ s : State, s.valid.getLsbD 1 = false → ∃ t, exec .scale s = .next t ∧ ErrorRecorded 4 0x0020 s t) ∧
  ∀ s : State, s.valid.getLsbD 1 = true →
    ∃ t, exec .scale s = .next t ∧
      t = { s with humF64 := t.humF64, tempF64 := t.tempF64, valid := t.valid } ∧
      f64Value t.humF64 = humidityOf (s.rawRh.toNat % 2 ^ 20) ∧
      f64Value t.tempF64 = temperatureOf (s.rawT.toNat % 2 ^ 20) ∧
      F64NormalOrZero t.humF64 ∧ F64NormalOrZero t.tempF64 ∧
      ∀ j < 8, t.valid.getLsbD j = (s.valid.getLsbD j || j == 3)

/-- R124: the scaled values are strictly increasing in the raw field, by exactly 100/2^20 % and 200/2^20 °C a step. Which
number an encoding stands for (`f64Value`, `humidityF64`, `temperatureF64`) is log entry 11 (PRESUMED; R122 marks the
layout as general knowledge). -/
def Obligations.ScaledValuesAreEvenlySpaced : Prop :=
  ∀ r : Nat, r + 1 < 2 ^ 20 →
    f64Value (humidityF64 (r + 1)) = f64Value (humidityF64 r) + 100 / 2 ^ 20 ∧
    f64Value (temperatureF64 (r + 1)) = f64Value (temperatureF64 r) + 200 / 2 ^ 20

/-- R126, R127, R129: ROUND with V_RAW set writes the humidity in whole percent, halves up under HUM_RND = 0 and
truncated under HUM_RND = 1, and the temperature in tenths of a degree, halves away from zero, both of the exact values,
and sets V_ROUND; it changes nothing else. With V_RAW clear it records RAW_NOT_READY and changes nothing else. -/
def Obligations.RoundRoundsExactValues : Prop :=
  ReservedImmRefused 0x21 ∧
  (∀ s : State, s.valid.getLsbD 1 = false → ∃ t, exec .round s = .next t ∧ ErrorRecorded 4 0x0021 s t) ∧
  ∀ s : State, s.valid.getLsbD 1 = true →
    ∃ t, exec .round s = .next t ∧
      t = { s with humPct := t.humPct, tempDeci := t.tempDeci, valid := t.valid } ∧
      (t.humPct.toNat : ℤ) = percentOf (s.config.getLsbD 1) (humidityOf (s.rawRh.toNat % 2 ^ 20)) ∧
      t.tempDeci.toInt = roundHalfAway (10 * temperatureOf (s.rawT.toNat % 2 ^ 20)) ∧
      ∀ j < 8, t.valid.getLsbD j = (s.valid.getLsbD j || j == 4)

/-- R128: the humidity is exactly a half-integer for four raw values only, where mode 0 gives 13, 38, 63, 88 and mode 1
gives 12, 37, 62, 87. -/
def Obligations.HumidityTies : Prop :=
  (∀ r < 2 ^ 20, (∃ k : ℕ, humidityOf r = k + 1 / 2) ↔ r ∈ [0x20000, 0x60000, 0xA0000, 0xE0000]) ∧
  [0x20000, 0x60000, 0xA0000, 0xE0000].map (humidityPercent false) = [13, 38, 63, 88] ∧
  [0x20000, 0x60000, 0xA0000, 0xE0000].map (humidityPercent true) = [12, 37, 62, 87]

/-- R130: ten times the temperature is exactly a half-integer only for odd multiples of 2^15, and there the rounding
goes away from zero: by a half up for a positive temperature, by a half down for a negative one. -/
def Obligations.TemperatureTies : Prop :=
  ∀ r < 2 ^ 20,
    ((∃ k : ℤ, 10 * temperatureOf r = k + 1 / 2) ↔ ∃ m, m % 2 = 1 ∧ r = m * 2 ^ 15) ∧
    ((∃ m, m % 2 = 1 ∧ r = m * 2 ^ 15) →
      ((temperatureTenths r).toInt : ℚ) =
        10 * temperatureOf r + (if temperatureOf r < 0 then -1 / 2 else 1 / 2))

/-- R131: after SCALE and ROUND of the same raw fields, HUM_PCT and TEMP_DECI are the rounding of the values HUM_F64 and
10 * TEMP_F64 encode; and ROUND neither reads HUM_F64 or TEMP_F64 nor needs V_SCALE. Which number an encoding stands for
(`f64Value`, first clause) is log entry 11 (PRESUMED; R122 marks the layout as general knowledge). -/
def Obligations.RoundAgreesWithScale : Prop :=
  (∀ s : State, s.valid.getLsbD 1 = true →
    ∃ t, runCommands [.scale, .round] s = .next t ∧
      (t.humPct.toNat : ℤ) = percentOf (s.config.getLsbD 1) (f64Value t.humF64) ∧
      t.tempDeci.toInt = roundHalfAway (10 * f64Value t.tempF64)) ∧
  ∀ (s : State) (h k : BitVec 64) (v : BitVec 8), v.getLsbD 1 = s.valid.getLsbD 1 →
    ∃ t u, exec .round s = .next t ∧ exec .round { s with humF64 := h, tempF64 := k, valid := v } = .next u ∧
      u.humPct = t.humPct ∧ u.tempDeci = t.tempDeci ∧ u.err = t.err

/-! ## CRC-8 (`42_crc.md`) -/

/-- R149: the CRC step is the table of R149 at `c ^ b`, on all 65536 inputs. -/
def Obligations.CrcStepIsTable : Prop :=
  ∀ c b : BitVec 8, crcTable[(c ^^^ b).toNat]? = some (crc8Step c b)

/-- R140 (derived): the CRC step is linear over XOR in the state and the byte together. -/
def Obligations.CrcStepIsLinear : Prop :=
  ∀ c c' b b' : BitVec 8, crc8Step (c ^^^ c') (b ^^^ b') = crc8Step c b ^^^ crc8Step c' b'

/-- R142: CRC_INIT sets CRC_ACC to 0xFF and changes nothing else, in every state; twice is the same as once. -/
def Obligations.CrcInitStartsAccumulator : Prop :=
  ReservedImmRefused 0x30 ∧
  (∀ s : State, exec .crcInit s = .next { s with crcAcc := 0xFF }) ∧
  ∀ s : State, runCommands [.crcInit, .crcInit] s = exec .crcInit s

/-- R143: CRC_BYTE, in every state and for every immediate, replaces CRC_ACC by the CRC step (R140, by the table of R149)
and changes nothing else. -/
def Obligations.CrcByteFeedsAccumulator : Prop :=
  ∀ (imm : BitVec 8) (s : State), performCommand (imm ++ 0x31#8) s = exec (.crcByte imm) s ∧
    ∃ c, crcTable[(s.crcAcc ^^^ imm).toNat]? = some c ∧ exec (.crcByte imm) s = .next { s with crcAcc := c }

/-- R144, R145, R146, R147: CHECK with all seven bytes loaded records the CRC of the window its profile selects, the
checksum byte, whether they are equal, and V_CRC, whether they match or not, and changes nothing else; with a byte not
loaded it records FRAME_NOT_LOADED and changes nothing else. -/
def Obligations.CheckValidatesFrame : Prop :=
  ReservedImmRefused 0x32 ∧
  (∀ s : State, s.frameVld.extractLsb' 0 7 ≠ 0b1111111#7 →
    ∃ t, exec .check s = .next t ∧ ErrorRecorded 3 0x0032 s t) ∧
  ∀ s : State, s.frameVld.extractLsb' 0 7 = 0b1111111#7 →
    ∃ t, exec .check s = .next t ∧
      t = { s with crcCalc := t.crcCalc, crcRecv := t.crcRecv, flags := t.flags, valid := t.valid } ∧
      (s.config.getLsbD 0 = false →
        t.crcCalc = crc8Step (crc8Step (crc8Step (crc8Step (crc8Step (crc8Step 0xFF
          s.frame[0]) s.frame[1]) s.frame[2]) s.frame[3]) s.frame[4]) s.frame[5] ∧ t.crcRecv = s.frame[6]) ∧
      (s.config.getLsbD 0 = true →
        t.crcCalc = crc8Step (crc8Step (crc8Step (crc8Step (crc8Step (crc8Step 0xFF
          s.frame[1]) s.frame[2]) s.frame[3]) s.frame[4]) s.frame[5]) s.frame[6] ∧ t.crcRecv = s.frame[0]) ∧
      (t.flags.getLsbD 2 = true ↔ t.crcCalc = t.crcRecv) ∧
      (∀ j, j ≠ 2 → t.flags.getLsbD j = s.flags.getLsbD j) ∧
      ∀ j < 8, t.valid.getLsbD j = (s.valid.getLsbD j || j == 2)

/-- R148: a byte sequence followed by its CRC has residue 0; and feeding frame bytes 0 to 6 through CRC_BYTE after
CRC_INIT leaves CRC_ACC = 0 exactly when CHECK under profile 0 sets CRC_OK. -/
def Obligations.CrcResidueMatchesCheck : Prop :=
  (∀ bytes : List (BitVec 8), crc8 (bytes ++ [crc8 bytes]) = 0x00) ∧
  ∀ s : State, s.frameVld.extractLsb' 0 7 = 0b1111111#7 → s.config.getLsbD 0 = false →
    ∃ t u, runCommands (.crcInit :: s.frame.toList.map Instr.crcByte) s = .next t ∧ exec .check s = .next u ∧
      (t.crcAcc = 0x00 ↔ u.flags.getLsbD 2 = true)

/-- R150, `95_test_vectors.md` L1-1 (values the spec derives): the CRC of "123456789" is 0xF7, of the reference frame
0x36, and of no bytes 0xFF. -/
def Obligations.CrcReferenceValues : Prop :=
  crc8 [0x31, 0x32, 0x33, 0x34, 0x35, 0x36, 0x37, 0x38, 0x39] = 0xF7 ∧
  crc8 [0x1C, 0x08, 0x00, 0x3F, 0x8C, 0x73] = 0x36 ∧ crc8 [] = 0xFF

/-- R150 and `95_test_vectors.md` 2.4, for EVERY frame (the spec marks the rule general knowledge): a frame CHECK finds
good under profile 0 is found bad after any one of its 56 bits is inverted. -/
def Obligations.CheckDetectsSingleBitErrors : Prop :=
  ∀ (s : State) (i : Fin 7) (j : Fin 8), s.frameVld.extractLsb' 0 7 = 0b1111111#7 → s.config.getLsbD 0 = false →
    ∃ t u, exec .check s = .next t ∧
      exec .check { s with frame := s.frame.set i (s.frame[i] ^^^ BitVec.twoPow 8 j) } = .next u ∧
      (t.flags.getLsbD 2 = true → u.flags.getLsbD 2 = false)

/-! ## The combined operation (`43_control.md`) -/

/-- R162: MEASURE with all seven bytes loaded decodes, checks, scales and rounds the frame in one step and changes
nothing else; with a byte not loaded it records FRAME_NOT_LOADED and changes nothing else. Which number HUM_F64 and
TEMP_F64 stand for (`f64Value`) is log entry 11 (PRESUMED; R122 marks the layout as general knowledge); that each is +0.0
or normal is R121. -/
def Obligations.MeasureComputesEveryResult : Prop :=
  ReservedImmRefused 0x40 ∧
  (∀ s : State, s.frameVld.extractLsb' 0 7 ≠ 0b1111111#7 →
    ∃ t, exec .measure s = .next t ∧ ErrorRecorded 3 0x0040 s t) ∧
  ∀ s : State, s.frameVld.extractLsb' 0 7 = 0b1111111#7 →
    let rh := (s.frame[1] ++ s.frame[2] ++ s.frame[3].extractLsb' 4 4).toNat
    let tr := (s.frame[3].extractLsb' 0 4 ++ s.frame[4] ++ s.frame[5]).toNat
    ∃ t, exec .measure s = .next t ∧
      t = { s with
        statusRaw := s.frame[0], flags := t.flags, rawRh := BitVec.ofNat 32 rh, rawT := BitVec.ofNat 32 tr
        crcCalc := crc8 (if s.config.getLsbD 0
          then [s.frame[1], s.frame[2], s.frame[3], s.frame[4], s.frame[5], s.frame[6]]
          else [s.frame[0], s.frame[1], s.frame[2], s.frame[3], s.frame[4], s.frame[5]])
        crcRecv := if s.config.getLsbD 0 then s.frame[0] else s.frame[6]
        humF64 := t.humF64, tempF64 := t.tempF64, humPct := t.humPct, tempDeci := t.tempDeci, valid := t.valid } ∧
      t.flags.getLsbD 0 = s.frame[0].getLsbD 7 ∧ t.flags.getLsbD 1 = s.frame[0].getLsbD 3 ∧
      t.flags.getLsbD 2 = decide (t.crcCalc = t.crcRecv) ∧ (∀ j, 3 ≤ j → t.flags.getLsbD j = s.flags.getLsbD j) ∧
      f64Value t.humF64 = humidityOf rh ∧ f64Value t.tempF64 = temperatureOf tr ∧
      F64NormalOrZero t.humF64 ∧ F64NormalOrZero t.tempF64 ∧
      (t.humPct.toNat : ℤ) = percentOf (s.config.getLsbD 1) (humidityOf rh) ∧
      t.tempDeci.toInt = roundHalfAway (10 * temperatureOf tr) ∧
      ∀ j < 8, t.valid.getLsbD j = (s.valid.getLsbD j || decide (j ≤ 4))

/-- R163: with all seven bytes loaded MEASURE ends in the same state as DECODE; CHECK; SCALE; ROUND; with only byte 6 not
loaded the sequence performs DECODE, SCALE and ROUND and refuses CHECK, while MEASURE only records FRAME_NOT_LOADED. -/
def Obligations.MeasureEqualsTheSequence : Prop :=
  (∀ s : State, s.frameVld.extractLsb' 0 7 = 0b1111111#7 →
    ∃ t, exec .measure s = .next t ∧ runCommands [.decode, .check, .scale, .round] s = .next t) ∧
  ∀ s : State, s.frameVld.extractLsb' 0 7 = 0b0111111#7 →
    ∃ t u v, exec .measure s = .next t ∧ ErrorRecorded 3 0x0040 s t ∧
      runCommands [.decode, .scale, .round] s = .next u ∧
      runCommands [.decode, .check, .scale, .round] s = .next v ∧ ErrorRecorded 3 0x0032 u v

/-! ## Host accesses (`20_memory.md`, `10_state.md`) -/

/-- R54: a read of a register, at its offset and with its width, returns the register's value (0x0000 for CMD) and has no
other effect; in every state in which the always-zero bits are 0. -/
def Obligations.RegisterReadsReturnRegisters : Prop :=
  ∀ (s : State) (addr : BitVec 8) (d : Data) (rest : List HostEvent), RegInv s → (addr, d) ∈ registerRows s →
    s.pending = .access (.read addr d.width) :: rest →
    step s = .next { s with pending := rest, reads := s.reads ++ [d] }

/-- R54, R56: every other read returns 0 of its width, records BAD_ACCESS with the width and the offset as detail, and
changes no other register. -/
def Obligations.OtherReadsAreRefused : Prop :=
  ∀ (s : State) (addr : BitVec 8) (n : Width) (rest : List HostEvent), isRegister addr n = false →
    s.pending = .access (.read addr n) :: rest →
    ∃ t, step s = .next t ∧ t.reads = s.reads ++ [Data.ofBits n 0] ∧
      ErrorRecorded 5 (n.bytes ++ addr) { s with pending := rest, reads := t.reads } t

/-- R57 (and R56 for writes): a write at no register's offset and width records BAD_ACCESS, an admitted write to a read-only
register records READ_ONLY, each with the width and the offset as detail and nothing else changed. -/
def Obligations.ForbiddenWritesAreRefused : Prop :=
  ∀ (s : State) (addr : BitVec 8) (v : Data) (rest : List HostEvent),
    s.pending = .access (.write addr v) :: rest →
    (isRegister addr v.width = false →
      ∃ t, step s = .next t ∧ ErrorRecorded 5 (v.width.bytes ++ addr) { s with pending := rest } t) ∧
    (isRegister addr v.width = true → isHostWritable addr = false →
      ∃ t, step s = .next t ∧ ErrorRecorded 6 (v.width.bytes ++ addr) { s with pending := rest } t)

/-- R25: a write of `v` to CONFIG sets it to its bits 1:0 zero-extended, records no error and changes nothing else; a
read of CONFIG then returns 0 in bits 7:2. -/
def Obligations.ConfigWriteKeepsTwoBits : Prop :=
  ∀ (s : State) (v : BitVec 8) (rest : List HostEvent),
    s.pending = .access (.write 0x02 (.b1 v)) :: .access (.read 0x02 .w1) :: rest →
    ∃ t u, step s = .next t ∧ t = { s with config := t.config, pending := .access (.read 0x02 .w1) :: rest } ∧
      (∀ j < 8, t.config.getLsbD j = (decide (j < 2) && v.getLsbD j)) ∧
      step t = .next u ∧ u = { t with pending := rest, reads := s.reads ++ [.b1 t.config] }

/-- R30: a write of `v` to FRAMEi stores it in frame byte `i`, sets FRAME_VLD bit `i` and changes nothing else, for every
frame byte. -/
def Obligations.FrameWriteLoadsOneByte : Prop :=
  ∀ (s : State) (i : Fin 7) (v : BitVec 8) (rest : List HostEvent),
    s.pending = .access (.write (BitVec.ofNat 8 (0x08 + i.val)) (.b1 v)) :: rest →
    ∃ t, step s = .next t ∧ t = { s with frame := t.frame, frameVld := t.frameVld, pending := rest } ∧
      (∀ j : Fin 7, t.frame[j] = if j = i then v else s.frame[j]) ∧
      ∀ j < 8, t.frameVld.getLsbD j = (s.frameVld.getLsbD j || j == i.val)

/-- R29: FRAME_VLD bit `i` is set by a write to FRAMEi and by nothing else, and cleared by reset and CLEAR only. -/
def Obligations.FrameValidBitsFollowWrites : Prop :=
  ∀ (s : State) (e : HostEvent) (rest : List HostEvent), s.pending = e :: rest → clearsErrors e = false →
    ∃ t, step s = .next t ∧ ∀ j < 8, t.frameVld.getLsbD j =
      (s.frameVld.getLsbD j || decide (j < 7 ∧ ∃ v, e = .access (.write (BitVec.ofNat 8 (0x08 + j)) (.b1 v))))

/-! ## Reset (`70_reset_and_hazards.md`) -/

/-- R200: the reset state has every register at the value the rule gives. -/
def Obligations.ResetStateHasSpecValues : Prop := AtReset State.reset

/-- R201 (values R200): a reset leaves every register at its reset value, from every state; a reset that overlaps an
access wins, and the access has no effect, but that an overlapped read returns some value of its width. The clauses on
`pending` and `reads` are the model's: later events are kept (log entry 1, DESIGN CHOICE), the record of reads is kept
(log entry 3, DESIGN CHOICE), the overlapped read is recorded as a free value (log entry 4, DESIGN CHOICE) and the
overlapped access is lost in the one step (log entry 5, DEDUCED). -/
def Obligations.ResetWinsOverAccess : Prop :=
  ∀ (s : State) (e : HostEvent) (rest : List HostEvent), s.pending = e :: rest →
    (e = .reset ∨ ∃ a, e = .resetOver a) →
    ∃ t, step s = .next t ∧ AtReset t ∧ t.pending = rest ∧
      (e = .reset ∨ (∃ addr v, e = .resetOver (.write addr v)) → t.reads = s.reads) ∧
      ∀ addr n, e = .resetOver (.read addr n) → ∃ d : Data, d.width = n ∧ t.reads = s.reads ++ [d]

/-! ## Invariants (`10_state.md`) -/

/-- R48, R28 at reset: the register invariants hold in the reset state, whatever events are placed. -/
def Obligations.InvariantsHoldAtReset : Prop :=
  ∀ (events : List HostEvent) (k : Nat),
    RegInv { State.reset with pending := events, freeCount := k } ∧
    UnsetInv { State.reset with pending := events, freeCount := k }

/-- R48 as an inductive invariant: every step, from every state that meets it, keeps it. -/
def Obligations.EveryStepKeepsRegisterInvariant : Prop :=
  ∀ s t : State, RegInv s → step s = .next t → RegInv t

/-- R28 to R30 as an inductive invariant: every step keeps "while a valid bit is 0 its registers hold their reset
values", and the same of a frame byte and its FRAME_VLD bit. -/
def Obligations.EveryStepKeepsUnsetInvariant : Prop :=
  ∀ s t : State, UnsetInv s → step s = .next t → UnsetInv t

/-- The register invariants of R48 hold in every reachable state, and so does that registers under a clear valid bit hold
their reset values (R28) and that a frame byte not loaded is 0 (R29, R30). A run starts from reset (log entry 7, DEDUCED)
with any events placed (log entry 1, DESIGN CHOICE). -/
def Obligations.ReachableStatesMeetInvariants : Prop :=
  ∀ s : State, Reachable s → RegInv s ∧ UnsetInv s

/-! ## Errors over the whole machine (`60_exceptions.md`) -/

/-- R181, R184, R186: an access records the first cause that applies, in the order BAD_ACCESS, READ_ONLY, ILLEGAL_OP,
RESERVED_IMM, FRAME_NOT_LOADED, RAW_NOT_READY, with the detail of that cause, and changes no other register (R185); only a
read adds to the host's record; an accepted access other than CLEAR leaves ERR and ERR_INFO as they were. -/
def Obligations.AccessesRecordFirstCause : Prop :=
  ∀ (s : State) (a : Access) (rest : List HostEvent), s.pending = .access a :: rest →
    ∃ t, step s = .next t ∧
      (refusalCause a s ≠ 0 →
        ErrorRecorded (refusalCause a s) (refusalInfo a) { s with pending := rest, reads := t.reads } t) ∧
      (∀ addr v, a = .write addr v → t.reads = s.reads) ∧
      (refusalCause a s = 0 → a ≠ .write 0x00 (.b2 0x0001) → t.err = s.err ∧ t.errInfo = s.errInfo)

/-- R184, R189: once an error is recorded, its cause and its detail stay until a reset or CLEAR. -/
def Obligations.FirstErrorIsKept : Prop :=
  ∀ (s : State) (e : HostEvent) (rest : List HostEvent), s.pending = e :: rest → clearsErrors e = false →
    s.err.extractLsb' 0 4 ≠ 0 →
    ∃ t, step s = .next t ∧ t.err.extractLsb' 0 4 = s.err.extractLsb' 0 4 ∧ t.errInfo = s.errInfo ∧
      (s.err.getLsbD 7 = true → t.err.getLsbD 7 = true)

/-- R189: `ERR = 0x00` read at the end of a run with no CLEAR and no reset says that the run was free of errors: `ERR`
was 0x00 after every one of its steps. A run is n steps over the events placed (log entry 1, DESIGN CHOICE); a step past
the last event changes nothing (log entry 2, DEDUCED). -/
def Obligations.ErrorFreeAtEndMeansErrorFreeThroughout : Prop :=
  ∀ (n : Nat) (s u : State), (∀ e ∈ s.pending.take n, clearsErrors e = false) →
    runSteps n s = .next u → ErrorFree u →
    ∀ k ≤ n, ∃ t, runSteps k s = .next t ∧ ErrorFree t

/-- R190: errors do not block: what a step does to the registers other than ERR and ERR_INFO does not depend on what is
recorded there. -/
def Obligations.ErrorsDoNotBlock : Prop :=
  ∀ (s : State) (e : BitVec 8) (info : BitVec 16),
    ∃ t u, step s = .next t ∧ step { s with err := e, errInfo := info } = .next u ∧
      { u with err := t.err, errInfo := t.errInfo, reads := t.reads } = t ∧ u.reads.length = t.reads.length

/-- R182: no error depends on data values: two states that agree on FRAME_VLD, V_RAW, the record of errors and the events
to come agree on the record of errors after the step. -/
def Obligations.ErrorsIgnoreDataValues : Prop :=
  ∀ s t : State, s.frameVld = t.frameVld → s.valid.getLsbD 1 = t.valid.getLsbD 1 → s.err = t.err →
    s.errInfo = t.errInfo → s.pending = t.pending →
    ∃ s' t', step s = .next s' ∧ step t = .next t' ∧ s'.err = t'.err ∧ s'.errInfo = t'.errInfo

/-! ## Who writes what (`10_state.md`) -/

/-- R44: a performed operation sets exactly the valid bits the rule lists and clears none, a refused one sets none;
CLEAR and reset clear all. -/
def Obligations.ValidBitsAreSetByTheirOperations : Prop :=
  ∀ (i : Instr) (s : State), ∃ t, exec i s = .next t ∧
    (i = .clear → t.valid = 0) ∧
    (i ≠ .clear → isPerformed i.mnemonic s = false → t.valid = s.valid) ∧
    (i ≠ .clear → isPerformed i.mnemonic s = true →
      ∀ j < 8, t.valid.getLsbD j = (s.valid.getLsbD j || (validBitsSet i.mnemonic).contains j)) ∧
    ∀ rest, ∃ u, step { s with pending := .reset :: rest } = .next u ∧ u.valid = 0

/-- R43: BUSY and CAL are written by STAT, DECODE, MEASURE and CLEAR only, CRC_OK by CHECK, MEASURE and CLEAR only, and
no operation reads a flag: changing FLAGS beforehand changes nothing but FLAGS afterwards. -/
def Obligations.FlagsHaveFewWritersAndNoReader : Prop :=
  ∀ (i : Instr) (s : State) (f : BitVec 8), ∃ t u, exec i s = .next t ∧ exec i { s with flags := f } = .next u ∧
    u = { t with flags := u.flags } ∧
    (i.mnemonic ∉ [.stat, .decode, .measure, .clear] →
      t.flags.getLsbD 0 = s.flags.getLsbD 0 ∧ t.flags.getLsbD 1 = s.flags.getLsbD 1) ∧
    (i.mnemonic ∉ [.check, .measure, .clear] → t.flags.getLsbD 2 = s.flags.getLsbD 2)

/-- R31 (with R161 for CLEAR): no operation but CRC_INIT, CRC_BYTE and CLEAR reads or writes CRC_ACC: changing it
beforehand changes only itself afterwards. -/
def Obligations.CrcAccumulatorIsSeparate : Prop :=
  ∀ (i : Instr) (s : State) (a : BitVec 8), i.mnemonic ∉ [.crcInit, .crcByte, .clear] →
    ∃ t, exec i s = .next t ∧ t.crcAcc = s.crcAcc ∧ exec i { s with crcAcc := a } = .next { t with crcAcc := a }

/-- R46, R206: result registers and VALID are snapshots: no access but a write to CMD changes one. -/
def Obligations.ResultsAreSnapshots : Prop :=
  ∀ (s : State) (a : Access) (rest : List HostEvent), s.pending = .access a :: rest →
    (∀ w, a ≠ .write 0x00 (.b2 w)) →
    ∃ t, step s = .next t ∧
      t = { s with
        config := t.config, err := t.err, errInfo := t.errInfo, frameVld := t.frameVld, frame := t.frame
        pending := rest, reads := t.reads }

/-- R212: the host's record of what its reads returned only grows, by at most one value a step. -/
def Obligations.ReadRecordOnlyGrows : Prop :=
  ∀ s : State, ∃ t, step s = .next t ∧ (t.reads = s.reads ∨ ∃ d, t.reads = s.reads ++ [d])

/-! ## Host programs (`30_encoding.md`) -/

/-- LOADFRAME loads all seven bytes (R30), CRCRUN leaves the CRC of its bytes in CRC_ACC (R141 to R143), POLL decodes the
status byte (R100) and reads back its busy bit (R54); each changes nothing else. R79 gives their expansions into accesses.
The lines as terms, their check and their accesses (`Line.wf`, `lineAccesses`) are log entry 10, placing the accesses
(`loadProgram`) log entry 1 and the record of the read log entry 3, all DESIGN CHOICE. -/
def Obligations.PseudoInstructionsDoWhatTheyName : Prop :=
  ∀ s : State, s.pending = [] →
    (∀ bytes, Line.wf (.loadFrame bytes) = true →
      ∃ t, runSteps 7 (loadProgram (lineAccesses (.loadFrame bytes)) s) = .next t ∧
        t = { s with frame := t.frame, frameVld := t.frameVld } ∧
        t.frame.toList.map BitVec.toNat = bytes ∧
        ∀ j < 8, t.frameVld.getLsbD j = (s.frameVld.getLsbD j || decide (j < 7))) ∧
    (∀ bytes, Line.wf (.crcRun bytes) = true →
      runSteps (bytes.length + 1) (loadProgram (lineAccesses (.crcRun bytes)) s) =
        .next { s with crcAcc := crc8 (bytes.map (BitVec.ofNat 8)) }) ∧
    ∀ status, Line.wf (.poll status) = true →
      ∃ t d, runSteps 2 (loadProgram (lineAccesses (.poll status)) s) = .next t ∧
        t = { s with statusRaw := BitVec.ofNat 8 status, flags := t.flags, valid := t.valid, reads := s.reads ++ [.b1 d] } ∧
        d.getLsbD 0 = (BitVec.ofNat 8 status).getLsbD 7
end

