-- ==== Sys2Proof/Laws/Crc.lean ====
section
/-! SUPPORT. CRC-8: one more byte, and the step as a function of `c ^ b` (`42_crc.md` R141, R149). -/

namespace Sys2Proof.Machine

@[simp] theorem crc8_nil : crc8 [] = 0xFF := rfl

theorem crc8_append (xs : List (BitVec 8)) (b : BitVec 8) : crc8 (xs ++ [b]) = crc8Step (crc8 xs) b := by
  simp [crc8]

/-- The eight shifts depend only on `c ^ b` (`42_crc.md` R149). -/
theorem crc8Step_eq (c b : BitVec 8) : crc8Step c b = crc8Step 0 (c ^^^ b) := by
  simp [crc8Step]

@[simp] theorem crc8Step_self (c : BitVec 8) : crc8Step c c = 0 := by
  simp only [crc8Step, BitVec.xor_self]
  decide

/-- One shift is linear over XOR. -/
theorem crc8Shift_xor (c d : BitVec 8) : crc8Shift (c ^^^ d) = crc8Shift c ^^^ crc8Shift d := by
  have hs : (c ^^^ d) <<< 1 = (c <<< 1) ^^^ (d <<< 1) := BitVec.shiftLeft_xor_distrib c d 1
  unfold crc8Shift
  rw [BitVec.getLsbD_xor, hs]
  generalize c <<< 1 = x
  generalize d <<< 1 = y
  generalize (0x31 : BitVec 8) = p
  cases c.getLsbD 7 <;> cases d.getLsbD 7 <;> simp
  all_goals
    ext j hj
    simp only [BitVec.getElem_xor]
    cases x[j] <;> cases y[j] <;> cases p[j] <;> rfl

end Sys2Proof.Machine
end

