-- ==== Sys2Proof/Laws/Encoding.lean ====
section
/-! SUPPORT. The fields of an encoded word, and the opcode map read in both directions. -/

namespace Sys2Proof

@[simp] theorem opField_append (imm op : Byte) : opField (imm ++ op) = op :=
  BitVec.extractLsb'_append_eq_right

@[simp] theorem immField_append (imm op : Byte) : immField (imm ++ op) = imm :=
  BitVec.extractLsb'_append_eq_left

/-- A word is its two fields (`30_encoding.md` R71). -/
theorem imm_append_op (w : Word16) : immField w ++ opField w = w := by
  ext j hj
  simp only [immField, opField, BitVec.getElem_append, BitVec.getElem_extractLsb']
  by_cases h : j < 8
  · simp [h, ← BitVec.getLsbD_eq_getElem]
  · have h2 : 8 + (j - 8) = j := by omega
    simp [h, h2, ← BitVec.getLsbD_eq_getElem]

theorem opField_toNat (w : Word16) : (opField w).toNat = w.toNat % 256 := by
  simp [opField, BitVec.extractLsb'_toNat]

theorem immField_toNat (w : Word16) : (immField w).toNat = w.toNat / 256 := by
  have h := w.isLt
  simp only [immField, BitVec.extractLsb'_toNat, Nat.shiftRight_eq_div_pow]
  omega

@[simp] theorem mnemonicOf_op (m : Mnemonic) : mnemonicOf m.op = some m := by cases m <;> rfl

/-- The opcode map is read right: an `op` that names an operation is that operation's. -/
theorem op_of_mnemonicOf (op : Byte) (m : Mnemonic) (h : mnemonicOf op = some m) : m.op = op := by
  revert m
  revert op
  decide

@[simp] theorem instr_mnemonic_imm (i : Instr) : i.mnemonic.instr i.imm = i := by cases i <;> rfl

@[simp] theorem mnemonic_instr (m : Mnemonic) (imm : Byte) : (m.instr imm).mnemonic = m := by cases m <;> rfl

/-- A command has a non-zero immediate only where its operation takes one (`30_encoding.md` R78). -/
theorem imm_of_no_imm (i : Instr) (h : i.mnemonic.takesImm = false) : i.imm = 0 := by
  cases i <;> first | rfl | cases h

theorem instr_imm (m : Mnemonic) (imm : Byte) (h : m.takesImm = true ∨ imm = 0) : (m.instr imm).imm = imm := by
  rcases h with h | rfl <;> cases m <;> first | rfl | cases h

end Sys2Proof
end

