-- ==== Sys2Proof/Laws/State.lean ====
section
/-! SUPPORT. One lemma per field and update of State, true by `rfl`; with the error record and reset, whose fields are
said once. Later proofs cite these and unfold no update. -/

namespace Sys2Proof.Machine

/-! ## writeConfig -/

@[simp] theorem writeConfig_config (v : Byte) (s : State) :
    (writeConfig v s).config = (v.extractLsb' 0 2).setWidth 8 := rfl
@[simp] theorem writeConfig_err (v : Byte) (s : State) : (writeConfig v s).err = s.err := rfl
@[simp] theorem writeConfig_errInfo (v : Byte) (s : State) : (writeConfig v s).errInfo = s.errInfo := rfl
@[simp] theorem writeConfig_valid (v : Byte) (s : State) : (writeConfig v s).valid = s.valid := rfl
@[simp] theorem writeConfig_frameVld (v : Byte) (s : State) : (writeConfig v s).frameVld = s.frameVld := rfl
@[simp] theorem writeConfig_frame (v : Byte) (s : State) : (writeConfig v s).frame = s.frame := rfl
@[simp] theorem writeConfig_crcAcc (v : Byte) (s : State) : (writeConfig v s).crcAcc = s.crcAcc := rfl
@[simp] theorem writeConfig_statusRaw (v : Byte) (s : State) : (writeConfig v s).statusRaw = s.statusRaw := rfl
@[simp] theorem writeConfig_flags (v : Byte) (s : State) : (writeConfig v s).flags = s.flags := rfl
@[simp] theorem writeConfig_crcCalc (v : Byte) (s : State) : (writeConfig v s).crcCalc = s.crcCalc := rfl
@[simp] theorem writeConfig_crcRecv (v : Byte) (s : State) : (writeConfig v s).crcRecv = s.crcRecv := rfl
@[simp] theorem writeConfig_rawRh (v : Byte) (s : State) : (writeConfig v s).rawRh = s.rawRh := rfl
@[simp] theorem writeConfig_rawT (v : Byte) (s : State) : (writeConfig v s).rawT = s.rawT := rfl
@[simp] theorem writeConfig_humPct (v : Byte) (s : State) : (writeConfig v s).humPct = s.humPct := rfl
@[simp] theorem writeConfig_tempDeci (v : Byte) (s : State) : (writeConfig v s).tempDeci = s.tempDeci := rfl
@[simp] theorem writeConfig_humF64 (v : Byte) (s : State) : (writeConfig v s).humF64 = s.humF64 := rfl
@[simp] theorem writeConfig_tempF64 (v : Byte) (s : State) : (writeConfig v s).tempF64 = s.tempF64 := rfl
@[simp] theorem writeConfig_pending (v : Byte) (s : State) : (writeConfig v s).pending = s.pending := rfl
@[simp] theorem writeConfig_reads (v : Byte) (s : State) : (writeConfig v s).reads = s.reads := rfl
@[simp] theorem writeConfig_freeCount (v : Byte) (s : State) : (writeConfig v s).freeCount = s.freeCount := rfl

/-! ## writeFrame -/

@[simp] theorem writeFrame_config (i : Fin 7) (v : Byte) (s : State) : (writeFrame i v s).config = s.config := rfl
@[simp] theorem writeFrame_err (i : Fin 7) (v : Byte) (s : State) : (writeFrame i v s).err = s.err := rfl
@[simp] theorem writeFrame_errInfo (i : Fin 7) (v : Byte) (s : State) : (writeFrame i v s).errInfo = s.errInfo := rfl
@[simp] theorem writeFrame_valid (i : Fin 7) (v : Byte) (s : State) : (writeFrame i v s).valid = s.valid := rfl
@[simp] theorem writeFrame_frameVld (i : Fin 7) (v : Byte) (s : State) :
    (writeFrame i v s).frameVld = setBit s.frameVld i.val true := rfl
@[simp] theorem writeFrame_frame (i : Fin 7) (v : Byte) (s : State) :
    (writeFrame i v s).frame = s.frame.set i v := rfl
@[simp] theorem writeFrame_crcAcc (i : Fin 7) (v : Byte) (s : State) : (writeFrame i v s).crcAcc = s.crcAcc := rfl
@[simp] theorem writeFrame_statusRaw (i : Fin 7) (v : Byte) (s : State) :
    (writeFrame i v s).statusRaw = s.statusRaw := rfl
@[simp] theorem writeFrame_flags (i : Fin 7) (v : Byte) (s : State) : (writeFrame i v s).flags = s.flags := rfl
@[simp] theorem writeFrame_crcCalc (i : Fin 7) (v : Byte) (s : State) : (writeFrame i v s).crcCalc = s.crcCalc := rfl
@[simp] theorem writeFrame_crcRecv (i : Fin 7) (v : Byte) (s : State) : (writeFrame i v s).crcRecv = s.crcRecv := rfl
@[simp] theorem writeFrame_rawRh (i : Fin 7) (v : Byte) (s : State) : (writeFrame i v s).rawRh = s.rawRh := rfl
@[simp] theorem writeFrame_rawT (i : Fin 7) (v : Byte) (s : State) : (writeFrame i v s).rawT = s.rawT := rfl
@[simp] theorem writeFrame_humPct (i : Fin 7) (v : Byte) (s : State) : (writeFrame i v s).humPct = s.humPct := rfl
@[simp] theorem writeFrame_tempDeci (i : Fin 7) (v : Byte) (s : State) :
    (writeFrame i v s).tempDeci = s.tempDeci := rfl
@[simp] theorem writeFrame_humF64 (i : Fin 7) (v : Byte) (s : State) : (writeFrame i v s).humF64 = s.humF64 := rfl
@[simp] theorem writeFrame_tempF64 (i : Fin 7) (v : Byte) (s : State) : (writeFrame i v s).tempF64 = s.tempF64 := rfl
@[simp] theorem writeFrame_pending (i : Fin 7) (v : Byte) (s : State) : (writeFrame i v s).pending = s.pending := rfl
@[simp] theorem writeFrame_reads (i : Fin 7) (v : Byte) (s : State) : (writeFrame i v s).reads = s.reads := rfl
@[simp] theorem writeFrame_freeCount (i : Fin 7) (v : Byte) (s : State) :
    (writeFrame i v s).freeCount = s.freeCount := rfl

/-! ## recordRead -/

@[simp] theorem recordRead_config (d : Data) (s : State) : (recordRead d s).config = s.config := rfl
@[simp] theorem recordRead_err (d : Data) (s : State) : (recordRead d s).err = s.err := rfl
@[simp] theorem recordRead_errInfo (d : Data) (s : State) : (recordRead d s).errInfo = s.errInfo := rfl
@[simp] theorem recordRead_valid (d : Data) (s : State) : (recordRead d s).valid = s.valid := rfl
@[simp] theorem recordRead_frameVld (d : Data) (s : State) : (recordRead d s).frameVld = s.frameVld := rfl
@[simp] theorem recordRead_frame (d : Data) (s : State) : (recordRead d s).frame = s.frame := rfl
@[simp] theorem recordRead_crcAcc (d : Data) (s : State) : (recordRead d s).crcAcc = s.crcAcc := rfl
@[simp] theorem recordRead_statusRaw (d : Data) (s : State) : (recordRead d s).statusRaw = s.statusRaw := rfl
@[simp] theorem recordRead_flags (d : Data) (s : State) : (recordRead d s).flags = s.flags := rfl
@[simp] theorem recordRead_crcCalc (d : Data) (s : State) : (recordRead d s).crcCalc = s.crcCalc := rfl
@[simp] theorem recordRead_crcRecv (d : Data) (s : State) : (recordRead d s).crcRecv = s.crcRecv := rfl
@[simp] theorem recordRead_rawRh (d : Data) (s : State) : (recordRead d s).rawRh = s.rawRh := rfl
@[simp] theorem recordRead_rawT (d : Data) (s : State) : (recordRead d s).rawT = s.rawT := rfl
@[simp] theorem recordRead_humPct (d : Data) (s : State) : (recordRead d s).humPct = s.humPct := rfl
@[simp] theorem recordRead_tempDeci (d : Data) (s : State) : (recordRead d s).tempDeci = s.tempDeci := rfl
@[simp] theorem recordRead_humF64 (d : Data) (s : State) : (recordRead d s).humF64 = s.humF64 := rfl
@[simp] theorem recordRead_tempF64 (d : Data) (s : State) : (recordRead d s).tempF64 = s.tempF64 := rfl
@[simp] theorem recordRead_pending (d : Data) (s : State) : (recordRead d s).pending = s.pending := rfl
@[simp] theorem recordRead_reads (d : Data) (s : State) : (recordRead d s).reads = s.reads ++ [d] := rfl
@[simp] theorem recordRead_freeCount (d : Data) (s : State) : (recordRead d s).freeCount = s.freeCount := rfl

/-! ## decodeStatus -/

@[simp] theorem decodeStatus_config (status : BitVec 8) (s : State) : (decodeStatus status s).config = s.config := rfl
@[simp] theorem decodeStatus_err (status : BitVec 8) (s : State) : (decodeStatus status s).err = s.err := rfl
@[simp] theorem decodeStatus_errInfo (status : BitVec 8) (s : State) :
    (decodeStatus status s).errInfo = s.errInfo := rfl
@[simp] theorem decodeStatus_valid (status : BitVec 8) (s : State) :
    (decodeStatus status s).valid = setValid vStatMask s.valid := rfl
@[simp] theorem decodeStatus_frameVld (status : BitVec 8) (s : State) :
    (decodeStatus status s).frameVld = s.frameVld := rfl
@[simp] theorem decodeStatus_frame (status : BitVec 8) (s : State) : (decodeStatus status s).frame = s.frame := rfl
@[simp] theorem decodeStatus_crcAcc (status : BitVec 8) (s : State) : (decodeStatus status s).crcAcc = s.crcAcc := rfl
@[simp] theorem decodeStatus_statusRaw (status : BitVec 8) (s : State) :
    (decodeStatus status s).statusRaw = status := rfl
@[simp] theorem decodeStatus_flags (status : BitVec 8) (s : State) :
    (decodeStatus status s).flags = statusFlags status s.flags := rfl
@[simp] theorem decodeStatus_crcCalc (status : BitVec 8) (s : State) :
    (decodeStatus status s).crcCalc = s.crcCalc := rfl
@[simp] theorem decodeStatus_crcRecv (status : BitVec 8) (s : State) :
    (decodeStatus status s).crcRecv = s.crcRecv := rfl
@[simp] theorem decodeStatus_rawRh (status : BitVec 8) (s : State) : (decodeStatus status s).rawRh = s.rawRh := rfl
@[simp] theorem decodeStatus_rawT (status : BitVec 8) (s : State) : (decodeStatus status s).rawT = s.rawT := rfl
@[simp] theorem decodeStatus_humPct (status : BitVec 8) (s : State) : (decodeStatus status s).humPct = s.humPct := rfl
@[simp] theorem decodeStatus_tempDeci (status : BitVec 8) (s : State) :
    (decodeStatus status s).tempDeci = s.tempDeci := rfl
@[simp] theorem decodeStatus_humF64 (status : BitVec 8) (s : State) : (decodeStatus status s).humF64 = s.humF64 := rfl
@[simp] theorem decodeStatus_tempF64 (status : BitVec 8) (s : State) :
    (decodeStatus status s).tempF64 = s.tempF64 := rfl
@[simp] theorem decodeStatus_pending (status : BitVec 8) (s : State) :
    (decodeStatus status s).pending = s.pending := rfl
@[simp] theorem decodeStatus_reads (status : BitVec 8) (s : State) : (decodeStatus status s).reads = s.reads := rfl
@[simp] theorem decodeStatus_freeCount (status : BitVec 8) (s : State) :
    (decodeStatus status s).freeCount = s.freeCount := rfl

/-! ## decodeRaw -/

@[simp] theorem decodeRaw_config (rh t : BitVec 20) (s : State) : (decodeRaw rh t s).config = s.config := rfl
@[simp] theorem decodeRaw_err (rh t : BitVec 20) (s : State) : (decodeRaw rh t s).err = s.err := rfl
@[simp] theorem decodeRaw_errInfo (rh t : BitVec 20) (s : State) : (decodeRaw rh t s).errInfo = s.errInfo := rfl
@[simp] theorem decodeRaw_valid (rh t : BitVec 20) (s : State) :
    (decodeRaw rh t s).valid = setValid vRawMask s.valid := rfl
@[simp] theorem decodeRaw_frameVld (rh t : BitVec 20) (s : State) : (decodeRaw rh t s).frameVld = s.frameVld := rfl
@[simp] theorem decodeRaw_frame (rh t : BitVec 20) (s : State) : (decodeRaw rh t s).frame = s.frame := rfl
@[simp] theorem decodeRaw_crcAcc (rh t : BitVec 20) (s : State) : (decodeRaw rh t s).crcAcc = s.crcAcc := rfl
@[simp] theorem decodeRaw_statusRaw (rh t : BitVec 20) (s : State) : (decodeRaw rh t s).statusRaw = s.statusRaw := rfl
@[simp] theorem decodeRaw_flags (rh t : BitVec 20) (s : State) : (decodeRaw rh t s).flags = s.flags := rfl
@[simp] theorem decodeRaw_crcCalc (rh t : BitVec 20) (s : State) : (decodeRaw rh t s).crcCalc = s.crcCalc := rfl
@[simp] theorem decodeRaw_crcRecv (rh t : BitVec 20) (s : State) : (decodeRaw rh t s).crcRecv = s.crcRecv := rfl
@[simp] theorem decodeRaw_rawRh (rh t : BitVec 20) (s : State) : (decodeRaw rh t s).rawRh = rh.setWidth 32 := rfl
@[simp] theorem decodeRaw_rawT (rh t : BitVec 20) (s : State) : (decodeRaw rh t s).rawT = t.setWidth 32 := rfl
@[simp] theorem decodeRaw_humPct (rh t : BitVec 20) (s : State) : (decodeRaw rh t s).humPct = s.humPct := rfl
@[simp] theorem decodeRaw_tempDeci (rh t : BitVec 20) (s : State) : (decodeRaw rh t s).tempDeci = s.tempDeci := rfl
@[simp] theorem decodeRaw_humF64 (rh t : BitVec 20) (s : State) : (decodeRaw rh t s).humF64 = s.humF64 := rfl
@[simp] theorem decodeRaw_tempF64 (rh t : BitVec 20) (s : State) : (decodeRaw rh t s).tempF64 = s.tempF64 := rfl
@[simp] theorem decodeRaw_pending (rh t : BitVec 20) (s : State) : (decodeRaw rh t s).pending = s.pending := rfl
@[simp] theorem decodeRaw_reads (rh t : BitVec 20) (s : State) : (decodeRaw rh t s).reads = s.reads := rfl
@[simp] theorem decodeRaw_freeCount (rh t : BitVec 20) (s : State) : (decodeRaw rh t s).freeCount = s.freeCount := rfl

/-! ## recordScaled -/

@[simp] theorem recordScaled_config (rh t : Nat) (s : State) : (recordScaled rh t s).config = s.config := rfl
@[simp] theorem recordScaled_err (rh t : Nat) (s : State) : (recordScaled rh t s).err = s.err := rfl
@[simp] theorem recordScaled_errInfo (rh t : Nat) (s : State) : (recordScaled rh t s).errInfo = s.errInfo := rfl
@[simp] theorem recordScaled_valid (rh t : Nat) (s : State) :
    (recordScaled rh t s).valid = setValid vScaleMask s.valid := rfl
@[simp] theorem recordScaled_frameVld (rh t : Nat) (s : State) : (recordScaled rh t s).frameVld = s.frameVld := rfl
@[simp] theorem recordScaled_frame (rh t : Nat) (s : State) : (recordScaled rh t s).frame = s.frame := rfl
@[simp] theorem recordScaled_crcAcc (rh t : Nat) (s : State) : (recordScaled rh t s).crcAcc = s.crcAcc := rfl
@[simp] theorem recordScaled_statusRaw (rh t : Nat) (s : State) : (recordScaled rh t s).statusRaw = s.statusRaw := rfl
@[simp] theorem recordScaled_flags (rh t : Nat) (s : State) : (recordScaled rh t s).flags = s.flags := rfl
@[simp] theorem recordScaled_crcCalc (rh t : Nat) (s : State) : (recordScaled rh t s).crcCalc = s.crcCalc := rfl
@[simp] theorem recordScaled_crcRecv (rh t : Nat) (s : State) : (recordScaled rh t s).crcRecv = s.crcRecv := rfl
@[simp] theorem recordScaled_rawRh (rh t : Nat) (s : State) : (recordScaled rh t s).rawRh = s.rawRh := rfl
@[simp] theorem recordScaled_rawT (rh t : Nat) (s : State) : (recordScaled rh t s).rawT = s.rawT := rfl
@[simp] theorem recordScaled_humPct (rh t : Nat) (s : State) : (recordScaled rh t s).humPct = s.humPct := rfl
@[simp] theorem recordScaled_tempDeci (rh t : Nat) (s : State) : (recordScaled rh t s).tempDeci = s.tempDeci := rfl
@[simp] theorem recordScaled_humF64 (rh t : Nat) (s : State) : (recordScaled rh t s).humF64 = humidityF64 rh := rfl
@[simp] theorem recordScaled_tempF64 (rh t : Nat) (s : State) :
    (recordScaled rh t s).tempF64 = temperatureF64 t := rfl
@[simp] theorem recordScaled_pending (rh t : Nat) (s : State) : (recordScaled rh t s).pending = s.pending := rfl
@[simp] theorem recordScaled_reads (rh t : Nat) (s : State) : (recordScaled rh t s).reads = s.reads := rfl
@[simp] theorem recordScaled_freeCount (rh t : Nat) (s : State) : (recordScaled rh t s).freeCount = s.freeCount := rfl

/-! ## recordRounded -/

@[simp] theorem recordRounded_config (rh t : Nat) (s : State) : (recordRounded rh t s).config = s.config := rfl
@[simp] theorem recordRounded_err (rh t : Nat) (s : State) : (recordRounded rh t s).err = s.err := rfl
@[simp] theorem recordRounded_errInfo (rh t : Nat) (s : State) : (recordRounded rh t s).errInfo = s.errInfo := rfl
@[simp] theorem recordRounded_valid (rh t : Nat) (s : State) :
    (recordRounded rh t s).valid = setValid vRoundMask s.valid := rfl
@[simp] theorem recordRounded_frameVld (rh t : Nat) (s : State) : (recordRounded rh t s).frameVld = s.frameVld := rfl
@[simp] theorem recordRounded_frame (rh t : Nat) (s : State) : (recordRounded rh t s).frame = s.frame := rfl
@[simp] theorem recordRounded_crcAcc (rh t : Nat) (s : State) : (recordRounded rh t s).crcAcc = s.crcAcc := rfl
@[simp] theorem recordRounded_statusRaw (rh t : Nat) (s : State) :
    (recordRounded rh t s).statusRaw = s.statusRaw := rfl
@[simp] theorem recordRounded_flags (rh t : Nat) (s : State) : (recordRounded rh t s).flags = s.flags := rfl
@[simp] theorem recordRounded_crcCalc (rh t : Nat) (s : State) : (recordRounded rh t s).crcCalc = s.crcCalc := rfl
@[simp] theorem recordRounded_crcRecv (rh t : Nat) (s : State) : (recordRounded rh t s).crcRecv = s.crcRecv := rfl
@[simp] theorem recordRounded_rawRh (rh t : Nat) (s : State) : (recordRounded rh t s).rawRh = s.rawRh := rfl
@[simp] theorem recordRounded_rawT (rh t : Nat) (s : State) : (recordRounded rh t s).rawT = s.rawT := rfl
@[simp] theorem recordRounded_humPct (rh t : Nat) (s : State) :
    (recordRounded rh t s).humPct = humidityPercent s.humRnd rh := rfl
@[simp] theorem recordRounded_tempDeci (rh t : Nat) (s : State) :
    (recordRounded rh t s).tempDeci = temperatureTenths t := rfl
@[simp] theorem recordRounded_humF64 (rh t : Nat) (s : State) : (recordRounded rh t s).humF64 = s.humF64 := rfl
@[simp] theorem recordRounded_tempF64 (rh t : Nat) (s : State) : (recordRounded rh t s).tempF64 = s.tempF64 := rfl
@[simp] theorem recordRounded_pending (rh t : Nat) (s : State) : (recordRounded rh t s).pending = s.pending := rfl
@[simp] theorem recordRounded_reads (rh t : Nat) (s : State) : (recordRounded rh t s).reads = s.reads := rfl
@[simp] theorem recordRounded_freeCount (rh t : Nat) (s : State) :
    (recordRounded rh t s).freeCount = s.freeCount := rfl

/-! ## recordCheck -/

@[simp] theorem recordCheck_config (s : State) : (recordCheck s).config = s.config := rfl
@[simp] theorem recordCheck_err (s : State) : (recordCheck s).err = s.err := rfl
@[simp] theorem recordCheck_errInfo (s : State) : (recordCheck s).errInfo = s.errInfo := rfl
@[simp] theorem recordCheck_valid (s : State) : (recordCheck s).valid = setValid vCrcMask s.valid := rfl
@[simp] theorem recordCheck_frameVld (s : State) : (recordCheck s).frameVld = s.frameVld := rfl
@[simp] theorem recordCheck_frame (s : State) : (recordCheck s).frame = s.frame := rfl
@[simp] theorem recordCheck_crcAcc (s : State) : (recordCheck s).crcAcc = s.crcAcc := rfl
@[simp] theorem recordCheck_statusRaw (s : State) : (recordCheck s).statusRaw = s.statusRaw := rfl
@[simp] theorem recordCheck_flags (s : State) :
    (recordCheck s).flags = crcFlag (crc8 (crcWindow s.crcProfile s.frame) == crcReceived s.crcProfile s.frame) s.flags := rfl
@[simp] theorem recordCheck_crcCalc (s : State) :
    (recordCheck s).crcCalc = crc8 (crcWindow s.crcProfile s.frame) := rfl
@[simp] theorem recordCheck_crcRecv (s : State) : (recordCheck s).crcRecv = crcReceived s.crcProfile s.frame := rfl
@[simp] theorem recordCheck_rawRh (s : State) : (recordCheck s).rawRh = s.rawRh := rfl
@[simp] theorem recordCheck_rawT (s : State) : (recordCheck s).rawT = s.rawT := rfl
@[simp] theorem recordCheck_humPct (s : State) : (recordCheck s).humPct = s.humPct := rfl
@[simp] theorem recordCheck_tempDeci (s : State) : (recordCheck s).tempDeci = s.tempDeci := rfl
@[simp] theorem recordCheck_humF64 (s : State) : (recordCheck s).humF64 = s.humF64 := rfl
@[simp] theorem recordCheck_tempF64 (s : State) : (recordCheck s).tempF64 = s.tempF64 := rfl
@[simp] theorem recordCheck_pending (s : State) : (recordCheck s).pending = s.pending := rfl
@[simp] theorem recordCheck_reads (s : State) : (recordCheck s).reads = s.reads := rfl
@[simp] theorem recordCheck_freeCount (s : State) : (recordCheck s).freeCount = s.freeCount := rfl

/-! ## raiseError -/

@[simp] theorem raiseError_config (c : ErrCause) (info : BitVec 16) (s : State) :
    (raiseError c info s).config = s.config := by unfold raiseError; split <;> rfl
@[simp] theorem raiseError_valid (c : ErrCause) (info : BitVec 16) (s : State) :
    (raiseError c info s).valid = s.valid := by unfold raiseError; split <;> rfl
@[simp] theorem raiseError_frameVld (c : ErrCause) (info : BitVec 16) (s : State) :
    (raiseError c info s).frameVld = s.frameVld := by unfold raiseError; split <;> rfl
@[simp] theorem raiseError_frame (c : ErrCause) (info : BitVec 16) (s : State) :
    (raiseError c info s).frame = s.frame := by unfold raiseError; split <;> rfl
@[simp] theorem raiseError_crcAcc (c : ErrCause) (info : BitVec 16) (s : State) :
    (raiseError c info s).crcAcc = s.crcAcc := by unfold raiseError; split <;> rfl
@[simp] theorem raiseError_statusRaw (c : ErrCause) (info : BitVec 16) (s : State) :
    (raiseError c info s).statusRaw = s.statusRaw := by unfold raiseError; split <;> rfl
@[simp] theorem raiseError_flags (c : ErrCause) (info : BitVec 16) (s : State) :
    (raiseError c info s).flags = s.flags := by unfold raiseError; split <;> rfl
@[simp] theorem raiseError_crcCalc (c : ErrCause) (info : BitVec 16) (s : State) :
    (raiseError c info s).crcCalc = s.crcCalc := by unfold raiseError; split <;> rfl
@[simp] theorem raiseError_crcRecv (c : ErrCause) (info : BitVec 16) (s : State) :
    (raiseError c info s).crcRecv = s.crcRecv := by unfold raiseError; split <;> rfl
@[simp] theorem raiseError_rawRh (c : ErrCause) (info : BitVec 16) (s : State) :
    (raiseError c info s).rawRh = s.rawRh := by unfold raiseError; split <;> rfl
@[simp] theorem raiseError_rawT (c : ErrCause) (info : BitVec 16) (s : State) :
    (raiseError c info s).rawT = s.rawT := by unfold raiseError; split <;> rfl
@[simp] theorem raiseError_humPct (c : ErrCause) (info : BitVec 16) (s : State) :
    (raiseError c info s).humPct = s.humPct := by unfold raiseError; split <;> rfl
@[simp] theorem raiseError_tempDeci (c : ErrCause) (info : BitVec 16) (s : State) :
    (raiseError c info s).tempDeci = s.tempDeci := by unfold raiseError; split <;> rfl
@[simp] theorem raiseError_humF64 (c : ErrCause) (info : BitVec 16) (s : State) :
    (raiseError c info s).humF64 = s.humF64 := by unfold raiseError; split <;> rfl
@[simp] theorem raiseError_tempF64 (c : ErrCause) (info : BitVec 16) (s : State) :
    (raiseError c info s).tempF64 = s.tempF64 := by unfold raiseError; split <;> rfl
@[simp] theorem raiseError_pending (c : ErrCause) (info : BitVec 16) (s : State) :
    (raiseError c info s).pending = s.pending := by unfold raiseError; split <;> rfl
@[simp] theorem raiseError_reads (c : ErrCause) (info : BitVec 16) (s : State) :
    (raiseError c info s).reads = s.reads := by unfold raiseError; split <;> rfl
@[simp] theorem raiseError_freeCount (c : ErrCause) (info : BitVec 16) (s : State) :
    (raiseError c info s).freeCount = s.freeCount := by unfold raiseError; split <;> rfl

/-! ## resetBlock -/

@[simp] theorem resetBlock_config (s : State) : (resetBlock s).config = State.reset.config := rfl
@[simp] theorem resetBlock_err (s : State) : (resetBlock s).err = State.reset.err := rfl
@[simp] theorem resetBlock_errInfo (s : State) : (resetBlock s).errInfo = State.reset.errInfo := rfl
@[simp] theorem resetBlock_valid (s : State) : (resetBlock s).valid = State.reset.valid := rfl
@[simp] theorem resetBlock_frameVld (s : State) : (resetBlock s).frameVld = State.reset.frameVld := rfl
@[simp] theorem resetBlock_frame (s : State) : (resetBlock s).frame = State.reset.frame := rfl
@[simp] theorem resetBlock_crcAcc (s : State) : (resetBlock s).crcAcc = State.reset.crcAcc := rfl
@[simp] theorem resetBlock_statusRaw (s : State) : (resetBlock s).statusRaw = State.reset.statusRaw := rfl
@[simp] theorem resetBlock_flags (s : State) : (resetBlock s).flags = State.reset.flags := rfl
@[simp] theorem resetBlock_crcCalc (s : State) : (resetBlock s).crcCalc = State.reset.crcCalc := rfl
@[simp] theorem resetBlock_crcRecv (s : State) : (resetBlock s).crcRecv = State.reset.crcRecv := rfl
@[simp] theorem resetBlock_rawRh (s : State) : (resetBlock s).rawRh = State.reset.rawRh := rfl
@[simp] theorem resetBlock_rawT (s : State) : (resetBlock s).rawT = State.reset.rawT := rfl
@[simp] theorem resetBlock_humPct (s : State) : (resetBlock s).humPct = State.reset.humPct := rfl
@[simp] theorem resetBlock_tempDeci (s : State) : (resetBlock s).tempDeci = State.reset.tempDeci := rfl
@[simp] theorem resetBlock_humF64 (s : State) : (resetBlock s).humF64 = State.reset.humF64 := rfl
@[simp] theorem resetBlock_tempF64 (s : State) : (resetBlock s).tempF64 = State.reset.tempF64 := rfl
@[simp] theorem resetBlock_pending (s : State) : (resetBlock s).pending = s.pending := rfl
@[simp] theorem resetBlock_reads (s : State) : (resetBlock s).reads = s.reads := rfl
@[simp] theorem resetBlock_freeCount (s : State) : (resetBlock s).freeCount = s.freeCount := rfl

end Sys2Proof.Machine
end

