-- ==== Sys2Proof/Laws/Ops.lean ====
section
/-! SUPPORT. What each shared operation does, said once. -/

namespace Sys2Proof.Machine

/-! ## Bit fields -/

/-- Setting a bit changes that bit only. -/
@[simp] theorem getLsbD_setBit (v : BitVec 8) (i j : Nat) (b : Bool) :
    (setBit v i b).getLsbD j = if j = i ∧ j < 8 then b else v.getLsbD j := by
  by_cases hj : j < 8
  · by_cases hji : j = i
    · subst hji
      cases b <;> simp [setBit, hj]
    · cases b <;> simp [setBit, hj, hji]
  · have hv : v.getLsbD j = false := BitVec.getLsbD_of_ge v j (by omega)
    have hs : (setBit v i b).getLsbD j = false := BitVec.getLsbD_of_ge _ j (by omega)
    simp [hj, hv, hs]

/-- The flags after a status decode (`10_state.md` R33). -/
theorem getLsbD_statusFlags (status flags : BitVec 8) (j : Nat) :
    (statusFlags status flags).getLsbD j =
      if j = 0 then status.getLsbD 7 else if j = 1 then status.getLsbD 3 else flags.getLsbD j := by
  unfold statusFlags
  rw [getLsbD_setBit, getLsbD_setBit]
  split_ifs <;> first | rfl | omega

/-- The flags after a frame check (`10_state.md` R33). -/
theorem getLsbD_crcFlag (ok : Bool) (flags : BitVec 8) (j : Nat) :
    (crcFlag ok flags).getLsbD j = if j = 2 then ok else flags.getLsbD j := by
  unfold crcFlag
  rw [getLsbD_setBit]
  split_ifs <;> first | rfl | omega

/-- Setting valid bits clears none (`10_state.md` R44). -/
@[simp] theorem getLsbD_setValid (mask valid : BitVec 8) (j : Nat) :
    (setValid mask valid).getLsbD j = (valid.getLsbD j || mask.getLsbD j) := by
  simp [setValid]

/-! ## Recording an error (`60_exceptions.md` R184) -/

/-- The codes of `60_exceptions.md` R181 are all of 1 to 6, and none is 0. -/
theorem code_range (c : ErrCause) : 1 ≤ (causeCode c).toNat ∧ (causeCode c).toNat ≤ 6 := by
  cases c <;> decide

/-- With no error recorded, CAUSE and ERR_INFO take the error. -/
theorem raiseError_first (c : ErrCause) (info : BitVec 16) (s : State) (h : s.cause = 0) :
    raiseError c info s = { s with err := s.err.extractLsb' 4 4 ++ causeCode c, errInfo := info } := by
  rw [raiseError, if_pos h]

/-- With an error recorded, only MULTI is set. -/
theorem raiseError_later (c : ErrCause) (info : BitVec 16) (s : State) (h : s.cause ≠ 0) :
    raiseError c info s = { s with err := setBit s.err 7 true } := by
  rw [raiseError, if_neg h]

/-- Everything `raise Error` can do. -/
theorem raiseError_recorded (c : ErrCause) (info : BitVec 16) (s : State) :
    ErrorRecorded (causeCode c) info s (raiseError c info s) := by
  by_cases h : s.cause = 0
  · rw [raiseError_first c info s h]
    refine ⟨rfl, fun _ => ⟨?_, ?_, rfl⟩, fun hne => absurd h hne⟩
    · exact BitVec.extractLsb'_append_eq_right
    · exact BitVec.extractLsb'_append_eq_left
  · rw [raiseError_later c info s h]
    refine ⟨rfl, fun h0 => absurd h0 h, fun _ => ⟨fun j hj => ?_, rfl⟩⟩
    simp only [getLsbD_setBit]
    by_cases hj7 : j = 7 <;> simp [hj7]

/-- ERR and ERR_INFO after an error depend on nothing but ERR and ERR_INFO before it. -/
theorem raiseError_err_congr (c : ErrCause) (info : BitVec 16) (s t : State) (h : s.err = t.err) :
    (raiseError c info s).err = (raiseError c info t).err := by
  have hc : s.cause = t.cause := by simp [State.cause, h]
  by_cases h0 : t.cause = 0
  · rw [raiseError_first c info s (hc.trans h0), raiseError_first c info t h0, h]
  · rw [raiseError_later c info s (hc ▸ h0), raiseError_later c info t h0, h]

theorem raiseError_errInfo_congr (c : ErrCause) (info : BitVec 16) (s t : State) (h : s.err = t.err)
    (hi : s.errInfo = t.errInfo) : (raiseError c info s).errInfo = (raiseError c info t).errInfo := by
  have hc : s.cause = t.cause := by simp [State.cause, h]
  by_cases h0 : t.cause = 0
  · rw [raiseError_first c info s (hc.trans h0), raiseError_first c info t h0]
  · rw [raiseError_later c info s (hc ▸ h0), raiseError_later c info t h0, hi]

/-! ## Reading and writing registers -/

/-- A frame write changes its own byte only (`10_state.md` R30). -/
theorem writeFrame_getElem (i j : Fin 7) (v : Byte) (s : State) :
    (writeFrame i v s).frame[j] = if j = i then v else s.frame[j] := by
  simp only [writeFrame_frame, Fin.getElem_fin, Vector.getElem_set]
  by_cases h : i = j
  · simp [h]
  · have h1 : ¬ (i : Nat) = (j : Nat) := fun e => h (Fin.ext e)
    have h2 : ¬ j = i := fun e => h e.symm
    simp [h1, h2]

/-- A refused read and an admitted one: the value has the width of the access. -/
theorem ofBits_width (n : Width) (v : BitVec 64) : (Data.ofBits n v).width = n := by cases n <;> rfl

theorem readReg_width (s : State) (r : Reg) : (s.readReg r).width = r.width := by cases r <;> rfl

end Sys2Proof.Machine
end

