-- ==== Sys2Proof/Laws/Dispatch.lean ====
section
/-! SUPPORT. What a command, an access and a step can do, said once: equations for each command, and the inversion
lemmas `exec_cases`, `memWrite_cases` and `step_cases` that later proofs cite. -/

namespace Sys2Proof.Machine

/-! ## Commands -/

theorem exec_decode_loaded (s : State) (h : s.frameVld.extractLsb' 0 6 = 0b111111#6) :
    exec .decode s =
      .next (decodeRaw (frameRh s.frame) (frameT s.frame) (decodeStatus (frameStatus s.frame) s)) := by
  simp [exec, execDecode, State.loaded6, h]

theorem exec_decode_unloaded (s : State) (h : s.frameVld.extractLsb' 0 6 ≠ 0b111111#6) :
    exec .decode s = .next (raiseError .frameNotLoaded (encode .decode) s) := by
  simp [exec, execDecode, State.loaded6, h]

theorem exec_scale_ready (s : State) (h : s.valid.getLsbD 1 = true) :
    exec .scale s = .next (recordScaled (raw20 s.rawRh) (raw20 s.rawT) s) := by
  simp only [exec, execScale, State.vRaw, h, if_true]

theorem exec_scale_unready (s : State) (h : s.valid.getLsbD 1 = false) :
    exec .scale s = .next (raiseError .rawNotReady (encode .scale) s) := by
  simp only [exec, execScale, State.vRaw, h, Bool.false_eq_true, if_false]

theorem exec_round_ready (s : State) (h : s.valid.getLsbD 1 = true) :
    exec .round s = .next (recordRounded (raw20 s.rawRh) (raw20 s.rawT) s) := by
  simp only [exec, execRound, State.vRaw, h, if_true]

theorem exec_round_unready (s : State) (h : s.valid.getLsbD 1 = false) :
    exec .round s = .next (raiseError .rawNotReady (encode .round) s) := by
  simp only [exec, execRound, State.vRaw, h, Bool.false_eq_true, if_false]

theorem exec_check_loaded (s : State) (h : s.frameVld.extractLsb' 0 7 = 0b1111111#7) :
    exec .check s = .next (recordCheck s) := by
  simp [exec, execCheck, State.loaded7, h]

theorem exec_check_unloaded (s : State) (h : s.frameVld.extractLsb' 0 7 ≠ 0b1111111#7) :
    exec .check s = .next (raiseError .frameNotLoaded (encode .check) s) := by
  simp [exec, execCheck, State.loaded7, h]

theorem exec_measure_loaded (s : State) (h : s.frameVld.extractLsb' 0 7 = 0b1111111#7) :
    exec .measure s = .next (measureFrame s) := by
  simp [exec, execMeasure, State.loaded7, h]

theorem exec_measure_unloaded (s : State) (h : s.frameVld.extractLsb' 0 7 ≠ 0b1111111#7) :
    exec .measure s = .next (raiseError .frameNotLoaded (encode .measure) s) := by
  simp [exec, execMeasure, State.loaded7, h]

/-- A command that is not performed records FRAME_NOT_LOADED or RAW_NOT_READY, with its word as detail. -/
theorem exec_unperformed (i : Instr) (s : State) (h : isPerformed i.mnemonic s = false) :
    ∃ c, (c = .frameNotLoaded ∨ c = .rawNotReady) ∧ exec i s = .next (raiseError c (encode i) s) := by
  cases i <;> simp only [Instr.mnemonic, isPerformed, Bool.true_eq_false, beq_eq_false_iff_ne, ne_eq] at h
  · exact ⟨_, .inl rfl, exec_decode_unloaded s h⟩
  · exact ⟨_, .inr rfl, exec_scale_unready s h⟩
  · exact ⟨_, .inr rfl, exec_round_unready s h⟩
  · exact ⟨_, .inl rfl, exec_check_unloaded s h⟩
  · exact ⟨_, .inl rfl, exec_measure_unloaded s h⟩

/-- The state after a performed command. -/
def performedState (i : Instr) (s : State) : State :=
  match i with
  | .nop => s
  | .clear => { resetBlock s with config := s.config }
  | .stat imm => decodeStatus imm s
  | .decode => decodeRaw (frameRh s.frame) (frameT s.frame) (decodeStatus (frameStatus s.frame) s)
  | .scale => recordScaled (raw20 s.rawRh) (raw20 s.rawT) s
  | .round => recordRounded (raw20 s.rawRh) (raw20 s.rawT) s
  | .crcInit => { s with crcAcc := 0xFF }
  | .crcByte imm => { s with crcAcc := crc8Step s.crcAcc imm }
  | .check => recordCheck s
  | .measure => measureFrame s

/-- A command that is performed does what its rule says. -/
theorem exec_performed (i : Instr) (s : State) (h : isPerformed i.mnemonic s = true) :
    exec i s = .next (performedState i s) := by
  cases i <;> simp only [Instr.mnemonic, isPerformed, beq_iff_eq] at h
  · rfl
  · rfl
  · rfl
  · exact exec_decode_loaded s h
  · exact exec_scale_ready s h
  · exact exec_round_ready s h
  · rfl
  · rfl
  · exact exec_check_loaded s h
  · exact exec_measure_loaded s h

/-- Everything a command can do: it is performed, or it only records an error. -/
theorem exec_cases (i : Instr) (s t : State) (h : exec i s = .next t) :
    (isPerformed i.mnemonic s = true ∧ t = performedState i s) ∨
    (isPerformed i.mnemonic s = false ∧
      ∃ c, (c = .frameNotLoaded ∨ c = .rawNotReady) ∧ t = raiseError c (encode i) s) := by
  cases hp : isPerformed i.mnemonic s
  · obtain ⟨c, hc, he⟩ := exec_unperformed i s hp
    rw [h] at he
    exact .inr ⟨rfl, c, hc, Host.Outcome.next.inj he⟩
  · rw [exec_performed i s hp] at h
    exact .inl ⟨rfl, (Host.Outcome.next.inj h).symm⟩

/-- Every command answers a next state. -/
theorem exec_next (i : Instr) (s : State) : ∃ t, exec i s = .next t := by
  cases hp : isPerformed i.mnemonic s
  · obtain ⟨c, _, he⟩ := exec_unperformed i s hp
    exact ⟨_, he⟩
  · exact ⟨_, exec_performed i s hp⟩

/-- No command touches what the host has still to issue, or its record. -/
theorem exec_host_fields (i : Instr) (s t : State) (h : exec i s = .next t) :
    t.pending = s.pending ∧ t.reads = s.reads ∧ t.freeCount = s.freeCount := by
  rcases exec_cases i s t h with ⟨-, rfl⟩ | ⟨-, c, -, rfl⟩
  · cases i <;> exact ⟨rfl, rfl, rfl⟩
  · simp

/-! ## Command words and writes -/

theorem performCommand_ok (w : Word16) (i : Instr) (s : State) (h : decode w = .ok i) :
    performCommand w s = exec i s := by simp [performCommand, h]

theorem performCommand_error (w : Word16) (e : DecodeError) (s : State) (h : decode w = .error e) :
    performCommand w s = .next (raiseError (decodeCause e) w s) := by simp [performCommand, h]

/-- Everything a write to CMD can do. -/
theorem performCommand_cases (w : Word16) (s t : State) (h : performCommand w s = .next t) :
    (∃ i, decode w = .ok i ∧ exec i s = .next t) ∨
    (∃ e, decode w = .error e ∧ t = raiseError (decodeCause e) w s) := by
  cases hd : decode w with
  | ok i => exact .inl ⟨i, rfl, performCommand_ok w i s hd ▸ h⟩
  | error e => exact .inr ⟨e, rfl, Host.Outcome.next.inj ((performCommand_error w e s hd ▸ h).symm)⟩

/-- Everything a host write can do (`20_memory.md` R55). -/
theorem memWrite_cases (addr : Byte) (v : Data) (s t : State) (h : memWrite addr v s = .next t) :
    (admitted addr v.width = none ∧ t = raiseError .badAccess (accessInfo v.width addr) s) ∨
    (∃ r, admitted addr v.width = some r ∧
      ((r.writeTarget = none ∧ t = raiseError .readOnly (accessInfo v.width addr) s) ∨
       (r = .cmd ∧ performCommand (v.bits.setWidth 16) s = .next t) ∨
       (r = .config ∧ t = writeConfig (v.bits.setWidth 8) s) ∨
       (∃ i, r = .frame i ∧ t = writeFrame i (v.bits.setWidth 8) s))) := by
  unfold memWrite at h
  cases ha : admitted addr v.width with
  | none =>
    rw [ha] at h
    exact .inl ⟨rfl, (Host.Outcome.next.inj h).symm⟩
  | some r =>
    rw [ha] at h
    refine .inr ⟨r, rfl, ?_⟩
    cases r <;> simp only [Reg.writeTarget, Host.Outcome.next.injEq] at h
    all_goals first
      | exact .inr (.inl ⟨rfl, h⟩)
      | exact .inr (.inr (.inl ⟨rfl, h.symm⟩))
      | exact .inr (.inr (.inr ⟨_, rfl, h.symm⟩))
      | exact .inl ⟨rfl, h.symm⟩

/-- Every host write answers a next state. -/
theorem memWrite_next (addr : Byte) (v : Data) (s : State) : ∃ t, memWrite addr v s = .next t := by
  unfold memWrite
  cases admitted addr v.width with
  | none => exact ⟨_, rfl⟩
  | some r =>
    cases hr : r.writeTarget with
    | none => exact ⟨_, by simp only [hr]; rfl⟩
    | some w =>
      cases w with
      | command =>
        simp only [hr]
        cases hd : decode (v.bits.setWidth 16) with
        | ok i =>
          rw [performCommand_ok _ i s hd]
          exact exec_next i s
        | error e => exact ⟨_, performCommand_error _ e s hd⟩
      | config => exact ⟨_, by simp only [hr]; rfl⟩
      | frame i => exact ⟨_, by simp only [hr]; rfl⟩

/-! ## Steps -/

theorem step_idle (s : State) (h : s.pending = []) : step s = .next s := by simp [step, h]

theorem step_event (s : State) (e : HostEvent) (rest : List HostEvent) (h : s.pending = e :: rest) :
    step s = applyEvent e { s with pending := rest } := by simp [step, h]

/-- Everything an event can do. -/
theorem applyEvent_cases (e : HostEvent) (s t : State) (h : applyEvent e s = .next t) :
    (∃ addr n, e = .access (.read addr n) ∧ t = memRead addr n s) ∨
    (∃ addr v, e = .access (.write addr v) ∧ memWrite addr v s = .next t) ∨
    (e = .reset ∧ t = resetBlock s) ∨
    (∃ addr n, e = .resetOver (.read addr n) ∧ t = readOverReset n (resetBlock s)) ∨
    (∃ addr v, e = .resetOver (.write addr v) ∧ t = resetBlock s) := by
  rcases e with (⟨addr, n⟩ | ⟨addr, v⟩) | _ | (⟨addr, n⟩ | ⟨addr, v⟩)
  · exact .inl ⟨addr, n, rfl, (Host.Outcome.next.inj h).symm⟩
  · exact .inr (.inl ⟨addr, v, rfl, h⟩)
  · exact .inr (.inr (.inl ⟨rfl, (Host.Outcome.next.inj h).symm⟩))
  · exact .inr (.inr (.inr (.inl ⟨addr, n, rfl, (Host.Outcome.next.inj h).symm⟩)))
  · exact .inr (.inr (.inr (.inr ⟨addr, v, rfl, (Host.Outcome.next.inj h).symm⟩)))

/-- Every event answers a next state. -/
theorem applyEvent_next (e : HostEvent) (s : State) : ∃ t, applyEvent e s = .next t := by
  rcases e with (⟨addr, n⟩ | ⟨addr, v⟩) | _ | (⟨addr, n⟩ | ⟨addr, v⟩)
  · exact ⟨_, rfl⟩
  · exact memWrite_next addr v s
  · exact ⟨_, rfl⟩
  · exact ⟨_, rfl⟩
  · exact ⟨_, rfl⟩

/-- Everything a step can do: nothing, or the oldest event. -/
theorem step_cases (s t : State) (h : step s = .next t) :
    (s.pending = [] ∧ t = s) ∨
    (∃ e rest, s.pending = e :: rest ∧ applyEvent e { s with pending := rest } = .next t) := by
  cases hp : s.pending with
  | nil =>
    rw [step_idle s hp] at h
    exact .inl ⟨rfl, (Host.Outcome.next.inj h).symm⟩
  | cons e rest =>
    rw [step_event s e rest hp] at h
    exact .inr ⟨e, rest, rfl, h⟩

/-! ## A property kept by every command, access and reset is kept by every step -/

/-- To show that every step keeps `P`, show that it does not depend on the host's own fields, and that recording an
error, a performed command, a CONFIG write, a FRAME write and reset keep it. -/
theorem step_keeps (P : State → Prop)
    (host : ∀ s pending reads k, P s → P { s with pending := pending, reads := reads, freeCount := k })
    (error : ∀ c info s, P s → P (raiseError c info s))
    (command : ∀ i s, P s → isPerformed i.mnemonic s = true → P (performedState i s))
    (config : ∀ v s, P s → P (writeConfig v s))
    (frame : ∀ i v s, P s → P (writeFrame i v s))
    (reset : ∀ s, P s → P (resetBlock s))
    (s t : State) (hs : P s) (h : step s = .next t) : P t := by
  have record : ∀ d s, P s → P (recordRead d s) := fun d s hs => host s s.pending (s.reads ++ [d]) s.freeCount hs
  rcases step_cases s t h with ⟨-, rfl⟩ | ⟨e, rest, -, h⟩
  · exact hs
  · have hs' : P { s with pending := rest } := host s rest s.reads s.freeCount hs
    rcases applyEvent_cases _ _ _ h with
      ⟨addr, n, -, rfl⟩ | ⟨addr, v, -, h⟩ | ⟨-, rfl⟩ | ⟨addr, n, -, rfl⟩ | ⟨addr, v, -, rfl⟩
    · refine record _ _ ?_
      unfold readEffect
      split
      · exact error _ _ _ hs'
      · exact hs'
    · rcases memWrite_cases _ _ _ _ h with ⟨-, rfl⟩ | ⟨r, -, ⟨-, rfl⟩ | ⟨-, h⟩ | ⟨-, rfl⟩ | ⟨i, -, rfl⟩⟩
      · exact error _ _ _ hs'
      · exact error _ _ _ hs'
      · rcases performCommand_cases _ _ _ h with ⟨i, -, h⟩ | ⟨e, -, rfl⟩
        · rcases exec_cases _ _ _ h with ⟨hp, rfl⟩ | ⟨-, c, -, rfl⟩
          · exact command _ _ hs' hp
          · exact error _ _ _ hs'
        · exact error _ _ _ hs'
      · exact config _ _ hs'
      · exact frame _ _ _ hs'
    · exact reset _ hs'
    · exact host (recordRead _ (resetBlock _)) _ _ _ (record _ _ (reset _ hs'))
    · exact reset _ hs'

end Sys2Proof.Machine
end

