-- ==== Sys2Proof/Laws/Frame.lean ====
section
/-! SUPPORT. The raw fields of a frame as numbers, and a frame as the list of its bytes (`40_decode.md` R105, R106). -/

namespace Sys2Proof.Machine

/-- Bits of disjoint weight add up. -/
theorem or_shiftLeft_eq_add (a b k : Nat) (h : b < 2 ^ k) : a <<< k ||| b = a * 2 ^ k + b := by
  rw [← Nat.shiftLeft_add_eq_or_of_lt h, Nat.shiftLeft_eq]

/-- `rawRH = FRAME[1] ++ FRAME[2] ++ FRAME[3][7:4]` (`40_decode.md` R105). -/
theorem frameRh_toNat (f : Vector (BitVec 8) 7) :
    (frameRh f).toNat = f[1].toNat * 2 ^ 12 + f[2].toNat * 2 ^ 4 + f[3].toNat / 2 ^ 4 := by
  have h1 := f[1].isLt
  have h2 := f[2].isLt
  have h3 := f[3].isLt
  have e1 : (f[1].setWidth 20 <<< 12).toNat = f[1].toNat <<< 12 := by
    simp only [BitVec.toNat_shiftLeft, BitVec.toNat_setWidth, Nat.shiftLeft_eq]
    omega
  have e2 : (f[2].setWidth 20 <<< 4).toNat = f[2].toNat <<< 4 := by
    simp only [BitVec.toNat_shiftLeft, BitVec.toNat_setWidth, Nat.shiftLeft_eq]
    omega
  have e3 : ((f[3] >>> 4).setWidth 20).toNat = f[3].toNat / 2 ^ 4 := by
    simp only [BitVec.toNat_setWidth, BitVec.toNat_ushiftRight, Nat.shiftRight_eq_div_pow]
    omega
  rw [frameRh, BitVec.toNat_or, BitVec.toNat_or, e1, e2, e3, Nat.or_assoc, or_shiftLeft_eq_add _ _ 4 (by omega),
    or_shiftLeft_eq_add _ _ 12 (by omega), Nat.add_assoc]

/-- `rawT = FRAME[3][3:0] ++ FRAME[4] ++ FRAME[5]` (`40_decode.md` R106). -/
theorem frameT_toNat (f : Vector (BitVec 8) 7) :
    (frameT f).toNat = f[3].toNat % 2 ^ 4 * 2 ^ 16 + f[4].toNat * 2 ^ 8 + f[5].toNat := by
  have h4 := f[4].isLt
  have h5 := f[5].isLt
  have hm : f[3].toNat &&& 15 = f[3].toNat % 2 ^ 4 := Nat.and_two_pow_sub_one_eq_mod f[3].toNat 4
  have e3 : ((f[3] &&& 0x0F).setWidth 20 <<< 16).toNat = (f[3].toNat % 2 ^ 4) <<< 16 := by
    simp only [BitVec.toNat_shiftLeft, BitVec.toNat_setWidth, BitVec.toNat_and, Nat.shiftLeft_eq]
    rw [show BitVec.toNat (0x0F : BitVec 8) = 15 from rfl, hm]
    omega
  have e4 : (f[4].setWidth 20 <<< 8).toNat = f[4].toNat <<< 8 := by
    simp only [BitVec.toNat_shiftLeft, BitVec.toNat_setWidth, Nat.shiftLeft_eq]
    omega
  have e5 : (f[5].setWidth 20).toNat = f[5].toNat := by
    simp only [BitVec.toNat_setWidth]
    omega
  rw [frameT, BitVec.toNat_or, BitVec.toNat_or, e3, e4, e5, Nat.or_assoc, or_shiftLeft_eq_add _ _ 8 (by omega),
    or_shiftLeft_eq_add _ _ 16 (by omega), Nat.add_assoc]

/-- A frame is its seven bytes. -/
theorem frame_toList (f : Vector (BitVec 8) 7) : f.toList = [f[0], f[1], f[2], f[3], f[4], f[5], f[6]] := by
  obtain ⟨⟨l⟩, h⟩ := f
  match l, h with
  | [_, _, _, _, _, _, _], _ => rfl

end Sys2Proof.Machine
end

