-- ==== Sys2Proof/Laws/PerInstr.lean ====
section
/-! SUPPORT. Per-command laws: the word of every command lies in its row of the opcode map (`30_encoding.md` R74). -/

namespace Sys2Proof.Laws.RowWord

open Sys2Proof.Machine

/-- The command's word matches its operation's row of R74. -/
def Statement (i : Instr) : Prop := encode i &&& rowMask i.mnemonic = rowMatch i.mnemonic

theorem nop : Statement .nop := by unfold Statement; decide
theorem clear : Statement .clear := by unfold Statement; decide
theorem stat (imm : Byte) : Statement (.stat imm) := by revert imm; unfold Statement; decide
theorem decode : Statement .decode := by unfold Statement; decide
theorem scale : Statement .scale := by unfold Statement; decide
theorem round : Statement .round := by unfold Statement; decide
theorem crcInit : Statement .crcInit := by unfold Statement; decide
theorem crcByte (imm : Byte) : Statement (.crcByte imm) := by revert imm; unfold Statement; decide
theorem check : Statement .check := by unfold Statement; decide
theorem measure : Statement .measure := by unfold Statement; decide

end Sys2Proof.Laws.RowWord
end

