-- ==== Sys2Proof/Tests/Slice0.lean ====
section
/-! SUPPORT. Tests: ill-formed lines the check refuses, words written out from the encoding, one-step tests with values
of `95_test_vectors.md`, and a witness for the hypotheses of every obligation that has some. -/

namespace Sys2Proof.Tests

open Sys2Proof.Machine

/-! ## Helpers -/

/-- The state an outcome goes on with. -/
def after : Host.Outcome State Fault Refusal → State
  | .next t => t
  | .fault f => nomatch f
  | .refused _ => State.reset

/-- The reset state with a frame, the loaded bits FRAME_VLD and CONFIG. -/
def framed (f : Vector (BitVec 8) 7) (loaded config : BitVec 8) : State :=
  { State.reset with frame := f, frameVld := loaded, config := config }

/-- The reset state with one raw value in both fields, V_RAW set, and CONFIG. -/
def rawBoth (raw : BitVec 32) (config : BitVec 8) : State :=
  { State.reset with rawRh := raw, rawT := raw, valid := 0x02, config := config }

/-- The reference frame of `95_test_vectors.md` L1-1 with its checksum. -/
def refFrame : Vector (BitVec 8) 7 := #v[0x1C, 0x08, 0x00, 0x3F, 0x8C, 0x73, 0x36]

/-- The state after one access from `s`. -/
def access (a : Access) (s : State) : State := after (step { s with pending := [.access a] })

/-! ## Ill-formed lines are refused (`30_encoding.md` R78, R79), one for each check -/

theorem test_wf_write_value : Line.wf (.wr .config 256) = false := by decide
theorem test_wf_expected_value : Line.wf (.rd .rawRh (some (2 ^ 32))) = false := by decide
theorem test_wf_missing_immediate : Line.wf (.cmd .stat none) = false := by decide
theorem test_wf_immediate_byte : Line.wf (.cmd .crcByte (some 256)) = false := by decide
theorem test_wf_raw_write_offset : Line.wf (.wrRaw .w1 256 0) = false := by decide
theorem test_wf_raw_write_value : Line.wf (.wrRaw .w2 0 65536) = false := by decide
theorem test_wf_raw_read_offset : Line.wf (.rdRaw .w1 256) = false := by decide
theorem test_wf_frame_length : Line.wf (.loadFrame [1, 2, 3, 4, 5, 6]) = false := by decide
theorem test_wf_frame_byte : Line.wf (.loadFrame [1, 2, 3, 4, 5, 6, 256]) = false := by decide
theorem test_wf_crcrun_empty : Line.wf (.crcRun []) = false := by decide
theorem test_wf_crcrun_byte : Line.wf (.crcRun [256]) = false := by decide
theorem test_wf_poll_byte : Line.wf (.poll 256) = false := by decide
theorem test_assemble_refuses_ill_formed : assemble [.cmd .nop none, .poll 256] = none := by decide

/-! ## Decoding, words written out from format C, imm then op (`30_encoding.md` R71, R74) -/

theorem test_decode_nop : decode 0b00000000_00000000 = .ok .nop := by rfl
theorem test_decode_clear : decode 0b00000000_00000001 = .ok .clear := by rfl
theorem test_decode_stat : decode 0b10011000_00010000 = .ok (.stat 0x98) := by rfl
theorem test_decode_decode : decode 0b00000000_00010001 = .ok .decode := by rfl
theorem test_decode_scale : decode 0b00000000_00100000 = .ok .scale := by rfl
theorem test_decode_round : decode 0b00000000_00100001 = .ok .round := by rfl
theorem test_decode_crc_init : decode 0b00000000_00110000 = .ok .crcInit := by rfl
theorem test_decode_crc_byte : decode 0b00011100_00110001 = .ok (.crcByte 0x1C) := by rfl
theorem test_decode_check : decode 0b00000000_00110010 = .ok .check := by rfl
theorem test_decode_measure : decode 0b00000000_01000000 = .ok .measure := by rfl
theorem test_decode_illegal : decode 0b01010101_00000010 = .error .illegalOp := by rfl
theorem test_decode_illegal_last : decode 0b11111111_11111111 = .error .illegalOp := by rfl
theorem test_decode_reserved : decode 0b00000101_00100000 = .error .reservedImm := by rfl
theorem test_encode_stat : encode (.stat 0x98) = 0b10011000_00010000 := by rfl
theorem test_decodeTableWord_stat : decodeTableWord 16 0x9810 = some (.stat 0x98) := by rfl
theorem test_decodeTableWord_op_only : decodeTableWord 8 0x9810 = some (.stat 0x00) := by rfl
theorem test_fetch_word_runs_first :
    (after (step (State.reset.withFetchWord 16 0x9810))).statusRaw = 0x98 := by decide

/-! ## One step of each command; expected values from `95_test_vectors.md` -/

/-- Section 2.5, NOP at reset. -/
theorem test_nop : exec .nop State.reset = .next State.reset := by rfl

/-- Section 2.5, CLEAR under CONFIG 03, and its errors gone. -/
theorem test_clear :
    let t := after (exec .clear { framed refFrame 0x7F 0x03 with err := 0x84, errInfo := 0x0020, crcAcc := 0x00 })
    t.config = 0x03 ∧ t.err = 0x00 ∧ t.errInfo = 0x0000 ∧ t.frameVld = 0x00 ∧ t.crcAcc = 0xFF := by decide

/-- Section 2.1, STAT 0x98; the valid bits and CRC_OK already set stay. -/
theorem test_stat :
    let t := after (exec (.stat 0x98) { State.reset with valid := 0x04, flags := 0x04 })
    t.statusRaw = 0x98 ∧ t.flags = 0x07 ∧ t.valid = 0x05 := by decide

/-- Section 2.1, STAT 0x77 clears BUSY and CAL. -/
theorem test_stat_clears :
    (after (exec (.stat 0x77) { State.reset with flags := 0x07 })).flags = 0x04 := by decide

/-- Section 2.2, row 98 6E 2B 45 F1 0A, with byte 6 not loaded. -/
theorem test_decode_frame :
    let t := after (exec .decode (framed #v[0x98, 0x6E, 0x2B, 0x45, 0xF1, 0x0A, 0x00] 0x3F 0x00))
    t.statusRaw = 0x98 ∧ t.flags = 0x03 ∧ t.rawRh = 0x6E2B4 ∧ t.rawT = 0x5F10A ∧ t.valid = 0x03 ∧ t.err = 0x00 := by
  decide

/-- Section 2.2, FRAME_VLD = 0x1F. -/
theorem test_decode_refused :
    let t := after (exec .decode (framed refFrame 0x1F 0x00))
    t.err = 0x03 ∧ t.errInfo = 0x0011 ∧ t.rawRh = 0 ∧ t.valid = 0x00 := by decide

/-- Section 2.3, row 0x3FFFF: a small negative temperature. -/
theorem test_scale :
    let t := after (exec .scale (rawBoth 0x3FFFF 0x00))
    t.humF64 = 0x4038FFF9C0000000 ∧ t.tempF64 = 0xBF29000000000000 ∧ t.valid = 0x0A := by decide

/-- Section 2.3, row 0x40000: 0 °C is +0.0. -/
theorem test_scale_zero :
    (after (exec .scale (rawBoth 0x40000 0x00))).tempF64 = 0x0000000000000000 := by decide

/-- Section 2.3, row 0x08000, a negative tie of the temperature, and row 0x20000, a tie of the humidity. -/
theorem test_round :
    (after (exec .round (rawBoth 0x08000 0x00))).tempDeci = 0xFE4A ∧
    (after (exec .round (rawBoth 0x20000 0x00))).humPct = 13 ∧
    (after (exec .round (rawBoth 0x20000 0x02))).humPct = 12 := by decide

/-- Section 2.3, ROUND with V_RAW = 0. -/
theorem test_round_refused :
    let t := after (exec .round State.reset)
    t.err = 0x04 ∧ t.errInfo = 0x0021 ∧ t.valid = 0x00 := by decide

/-- Program P2, line 1. -/
theorem test_crc_init : (after (exec .crcInit { State.reset with crcAcc := 0x36 })).crcAcc = 0xFF := by decide

/-- Program P2, line 2 (0xFF, 0x1C to 0x92), and the residue of line 9. -/
theorem test_crc_byte :
    (after (exec (.crcByte 0x1C) State.reset)).crcAcc = 0x92 ∧
    (after (exec (.crcByte 0x36) { State.reset with crcAcc := 0x36 })).crcAcc = 0x00 := by decide

/-- Section 2.4, the reference frame under profile 0: a match. -/
theorem test_check :
    let t := after (exec .check (framed refFrame 0x7F 0x00))
    t.crcCalc = 0x36 ∧ t.crcRecv = 0x36 ∧ t.flags = 0x04 ∧ t.valid = 0x04 := by decide +kernel

/-- Section 2.4, the reference frame under profile 1: a mismatch, and no error. -/
theorem test_check_profile_one :
    let t := after (exec .check { framed refFrame 0x7F 0x01 with flags := 0x04 })
    t.crcCalc = 0xAD ∧ t.crcRecv = 0x1C ∧ t.flags = 0x00 ∧ t.valid = 0x04 ∧ t.err = 0x00 := by decide +kernel

/-- Program P1, line 8. -/
theorem test_measure :
    let t := after (exec .measure (framed refFrame 0x7F 0x00))
    t.statusRaw = 0x1C ∧ t.flags = 0x06 ∧ t.valid = 0x1F ∧ t.crcCalc = 0x36 ∧ t.humF64 = 0x4009009600000000 ∧
      t.tempF64 = 0x40620B73B0000000 ∧ t.humPct = 0x03 ∧ t.tempDeci = 0x05A4 := by decide +kernel

/-- Section 2.5, MEASURE with no frame. -/
theorem test_measure_refused :
    let t := after (exec .measure State.reset)
    t.err = 0x03 ∧ t.errInfo = 0x0040 ∧ t.valid = 0x00 := by decide

/-! ## Accesses and errors (`95_test_vectors.md` 2.5) -/

theorem test_illegal_before_reserved :
    let t := access (.write 0x00 (.b2 0x5502)) State.reset
    t.err = 0x01 ∧ t.errInfo = 0x5502 := by decide

theorem test_read_wrong_width :
    let t := access (.read 0x14 .w2) State.reset
    t.reads = [.b2 0] ∧ t.err = 0x05 ∧ t.errInfo = 0x0214 := by decide

theorem test_read_unmapped :
    let t := access (.read 0x1D .w1) State.reset
    t.reads = [.b1 0] ∧ t.err = 0x05 ∧ t.errInfo = 0x011D := by decide

theorem test_read_cmd_and_crc_acc :
    (access (.read 0x00 .w2) State.reset).reads = [.b2 0x0000] ∧
    (access (.read 0x0F .w1) State.reset).reads = [.b1 0xFF] := by decide

theorem test_write_read_only :
    let t := access (.write 0x14 (.b4 0x00000005)) State.reset
    t.rawRh = 0 ∧ t.err = 0x06 ∧ t.errInfo = 0x0414 := by decide

theorem test_write_wrong_width_read_only :
    let t := access (.write 0x14 (.b2 0x0005)) State.reset
    t.err = 0x05 ∧ t.errInfo = 0x0214 := by decide

theorem test_config_reserved_bits :
    let t := access (.write 0x02 (.b1 0xFF)) State.reset
    t.config = 0x03 ∧ t.err = 0x00 := by decide

theorem test_later_error_sets_multi :
    let t := access (.read 0x01 .w1) { State.reset with err := 0x04, errInfo := 0x0020 }
    t.err = 0x84 ∧ t.errInfo = 0x0020 := by decide

theorem test_write_frame_three :
    let t := access (.write 0x0B (.b1 0x3F)) State.reset
    t.frame[3] = 0x3F ∧ t.frameVld = 0x08 := by decide

theorem test_reset_over_write :
    let t := after (step { framed refFrame 0x7F 0x03 with pending := [.resetOver (.write 0x08 (.b1 0x55))] })
    t.frame[0] = 0x00 ∧ t.frameVld = 0x00 ∧ t.config = 0x00 ∧ t.crcAcc = 0xFF ∧ t.reads = [] := by decide

/-! ## Host programs: encodings of `95_test_vectors.md` P3, lines 1 and 2, and P1, line 7 -/

theorem test_poll_accesses :
    lineAccesses (.poll 0x98) = [.write 0x00 (.b2 0x9810), .read 0x11 .w1] := by decide

theorem test_loadframe_last_access :
    (lineAccesses (.loadFrame [0x1C, 0x08, 0x00, 0x3F, 0x8C, 0x73, 0x36])).getLast? =
      some (.write 0x0E (.b1 0x36)) := by decide

/-! ## Witnesses: for each obligation with hypotheses, inputs that meet them -/

theorem test_witness_CommandWordsAreDecodedInOrder :
    ((0x5502 : BitVec 16).toNat % 256 ∉ assignedOps ∧ (0xFFFF : BitVec 16).toNat % 256 ∉ assignedOps) ∧
    ((0x0100 : BitVec 16).toNat % 256 ∈ assignedOps ∧ (0x0100 : BitVec 16).toNat % 256 ∉ immOps ∧
      (0x0100 : BitVec 16).toNat / 256 ≠ 0) ∧
    ((0xFF31 : BitVec 16).toNat % 256 ∈ assignedOps ∧ (0xFF31 : BitVec 16).toNat % 256 ∈ immOps) ∧
    ((0x0040 : BitVec 16).toNat % 256 ∈ assignedOps ∧ (0x0040 : BitVec 16).toNat / 256 = 0) := by decide

theorem test_witness_OpcodeRowsSelectOperations :
    (0xFF10 : BitVec 16) &&& rowMask .stat = rowMatch .stat ∧
    ¬ (0x0140 : BitVec 16) &&& rowMask .measure = rowMatch .measure := by decide

theorem test_witness_StepRunsDecodedCommand :
    decode 0x9810 = .ok (.stat 0x98) ∧
    { State.reset with pending := [.access (.write 0x00 (.b2 0x9810))] }.pending =
      .access (.write 0x00 (.b2 0x9810)) :: [] := by exact ⟨rfl, rfl⟩

theorem test_witness_IdleStepChangesNothing : State.reset.pending = [] := by rfl

/-- For every `ReservedImmRefused` clause. -/
theorem test_witness_ReservedImmRefused : (0x01 : BitVec 8) ≠ 0 ∧ (0xFF : BitVec 8) ≠ 0 := by decide

theorem test_witness_ClearResetsAllButConfig :
    Instr.scale ≠ Instr.clear ∧ { State.reset with err := 0x04 }.err ≠ 0 := by decide

/-- Also for `FieldPositionsIgnoreProfile` (first clause). -/
theorem test_witness_DecodeUnpacksFrame :
    (framed refFrame 0x3F 0x00).frameVld.extractLsb' 0 6 = 0b111111#6 ∧
    (framed refFrame 0x1F 0x00).frameVld.extractLsb' 0 6 ≠ 0b111111#6 := by decide

theorem test_witness_RawFieldsTakeEveryValue :
    (frameRh #v[0x00, 0xFF, 0xFF, 0xF0, 0x00, 0x00, 0x00]).toNat = 2 ^ 20 - 1 ∧
    (frameT #v[0x00, 0xFF, 0xFF, 0xF0, 0x00, 0x00, 0x00]).toNat = 0 := by decide

/-- Also for `RoundRoundsExactValues` and `RoundAgreesWithScale`. -/
theorem test_witness_ScaleIsExact :
    (rawBoth 0xFFFFF 0x00).valid.getLsbD 1 = true ∧
    { State.reset with valid := 0xFD }.valid.getLsbD 1 = false := by decide

theorem test_witness_RoundAgreesWithScale :
    (0x02 : BitVec 8).getLsbD 1 = (rawBoth 0xFFFFF 0x00).valid.getLsbD 1 ∧
    (0xFD : BitVec 8).getLsbD 1 = State.reset.valid.getLsbD 1 := by decide

theorem test_witness_ScaledValuesAreEvenlySpaced : 0 + 1 < 2 ^ 20 ∧ (2 ^ 20 - 2) + 1 < 2 ^ 20 := by decide

theorem test_witness_HumidityTies :
    0xE0000 < 2 ^ 20 ∧ humidityOf 0xE0000 = (87 : ℕ) + 1 / 2 := by
  constructor
  · decide
  · norm_num [humidityOf]

theorem test_witness_TemperatureTies :
    (1 % 2 = 1 ∧ 0x08000 = 1 * 2 ^ 15 ∧ 0x08000 < 2 ^ 20) ∧
    (31 % 2 = 1 ∧ 0xF8000 = 31 * 2 ^ 15 ∧ 0xF8000 < 2 ^ 20) := by decide

/-- Also for `CrcResidueMatchesCheck` and `MeasureComputesEveryResult`. -/
theorem test_witness_CheckValidatesFrame :
    (framed refFrame 0x7F 0x00).frameVld.extractLsb' 0 7 = 0b1111111#7 ∧
    (framed refFrame 0x7F 0x00).config.getLsbD 0 = false ∧
    (framed refFrame 0x7F 0x01).frameVld.extractLsb' 0 7 = 0b1111111#7 ∧
    (framed refFrame 0x7F 0x01).config.getLsbD 0 = true ∧
    (framed refFrame 0x3F 0x00).frameVld.extractLsb' 0 7 ≠ 0b1111111#7 := by decide

theorem test_witness_CheckDetectsSingleBitErrors :
    (framed refFrame 0x7F 0x00).frameVld.extractLsb' 0 7 = 0b1111111#7 ∧
    (framed refFrame 0x7F 0x00).config.getLsbD 0 = false ∧
    (after (exec .check (framed refFrame 0x7F 0x00))).flags.getLsbD 2 = true := by decide +kernel

theorem test_witness_MeasureEqualsTheSequence :
    (framed refFrame 0x7F 0x00).frameVld.extractLsb' 0 7 = 0b1111111#7 ∧
    (framed refFrame 0x3F 0x00).frameVld.extractLsb' 0 7 = 0b0111111#7 := by decide

/-- Also for the invariant obligations: the register invariants hold at reset. -/
theorem test_reset_RegInv : RegInv State.reset := by
  constructor <;> decide

theorem test_reset_UnsetInv : UnsetInv State.reset := by
  constructor <;> decide

theorem test_witness_RegisterReadsReturnRegisters :
    let s := { State.reset with pending := [.access (.read 0x28 .w8)] }
    RegInv s ∧ (0x28, Data.b8 0) ∈ registerRows s ∧ (0x00, Data.b2 0) ∈ registerRows s ∧
      s.pending = .access (.read 0x28 (Data.b8 0).width) :: [] := by
  refine ⟨?_, by decide, by decide, rfl⟩
  constructor <;> decide

theorem test_witness_OtherReadsAreRefused :
    isRegister 0x1D .w1 = false ∧ isRegister 0x30 .w1 = false ∧ isRegister 0xFF .w8 = false ∧
    isRegister 0x14 .w2 = false ∧
    { State.reset with pending := [.access (.read 0x1D .w1)] }.pending = .access (.read 0x1D .w1) :: [] := by
  exact ⟨rfl, rfl, rfl, rfl, rfl⟩

theorem test_witness_ForbiddenWritesAreRefused :
    isRegister 0x00 (Data.b1 0x11).width = false ∧
    (isRegister 0x07 (Data.b1 0x7F).width = true ∧ isHostWritable 0x07 = false) ∧
    (isRegister 0x0F (Data.b1 0x7F).width = true ∧ isHostWritable 0x0F = false) ∧
    (isRegister 0x0E (Data.b1 0x7F).width = true ∧ isHostWritable 0x0E = true) := by
  exact ⟨rfl, ⟨rfl, rfl⟩, ⟨rfl, rfl⟩, ⟨rfl, rfl⟩⟩

theorem test_witness_ConfigWriteKeepsTwoBits :
    { State.reset with pending := [.access (.write 0x02 (.b1 0xFF)), .access (.read 0x02 .w1)] }.pending =
      .access (.write 0x02 (.b1 0xFF)) :: .access (.read 0x02 .w1) :: [] := by rfl

theorem test_witness_FrameWriteLoadsOneByte :
    { State.reset with pending := [.access (.write 0x0E (.b1 0x36))] }.pending =
      .access (.write (BitVec.ofNat 8 (0x08 + (6 : Fin 7).val)) (.b1 0x36)) :: [] := by rfl

/-- For `FrameValidBitsFollowWrites` and `FirstErrorIsKept`: events that clear no error. -/
theorem test_witness_clearsErrors :
    clearsErrors (.access (.write 0x0E (.b1 0x36))) = false ∧ clearsErrors (.access (.write 0x00 (.b2 0x0101))) = false ∧
    clearsErrors (.access (.read 0x00 .w2)) = false ∧ clearsErrors (.access (.write 0x00 (.b2 0x0001))) = true := by
  decide

theorem test_witness_ResetWinsOverAccess :
    let e : HostEvent := .resetOver (.read 0x0F .w1)
    { State.reset with crcAcc := 0x12, pending := [e] }.pending = e :: [] ∧ (∃ a, e = .resetOver a) := by
  exact ⟨rfl, _, rfl⟩

theorem test_witness_EveryStepKeepsRegisterInvariant :
    let s := { State.reset with pending := [.access (.write 0x00 (.b2 0x9810))] }
    RegInv s ∧ UnsetInv s ∧ step s = .next (after (step s)) := by
  refine ⟨?_, ?_, rfl⟩ <;> constructor <;> decide

theorem test_witness_Reachable :
    Reachable { State.reset with pending := [.access (.write 0x00 (.b2 0x9810))], freeCount := 3 } :=
  .start _ _

/-- One witness for each cause at a write, for a refused read, and for accepted accesses. -/
theorem test_witness_AccessesRecordFirstCause :
    { State.reset with pending := [.access (.write 0x00 (.b2 0x0040))] }.pending =
      .access (.write 0x00 (.b2 0x0040)) :: [] ∧
    refusalCause (.write 0x00 (.b1 0x11)) State.reset = 5 ∧ refusalCause (.write 0x0F (.b1 0x00)) State.reset = 6 ∧
    refusalCause (.write 0x00 (.b2 0x5502)) State.reset = 1 ∧ refusalCause (.write 0x00 (.b2 0x0140)) State.reset = 2 ∧
    refusalCause (.write 0x00 (.b2 0x0040)) State.reset = 3 ∧ refusalCause (.write 0x00 (.b2 0x0021)) State.reset = 4 ∧
    refusalCause (.read 0x1D .w1) State.reset = 5 ∧ refusalCause (.write 0x00 (.b2 0x0000)) State.reset = 0 ∧
    refusalCause (.read 0x28 .w8) State.reset = 0 := by
  exact ⟨rfl, rfl, rfl, rfl, rfl, rfl, rfl, rfl, rfl, rfl⟩

theorem test_witness_FirstErrorIsKept :
    let s := { State.reset with err := 0x84, pending := [.access (.read 0x01 .w1)] }
    s.pending = .access (.read 0x01 .w1) :: [] ∧ s.err.extractLsb' 0 4 ≠ 0 ∧ s.err.getLsbD 7 = true := by
  exact ⟨rfl, by decide, by decide⟩

theorem test_witness_ErrorFreeAtEndMeansErrorFreeThroughout :
    let s := { State.reset with pending := [.access (.write 0x00 (.b2 0x9810)), .access (.read 0x11 .w1)] }
    (∀ e ∈ s.pending.take 2, clearsErrors e = false) ∧ runSteps 2 s = .next (after (runSteps 2 s)) ∧
    (after (runSteps 2 s)).err = 0x00 := by
  exact ⟨by decide, rfl, by decide⟩

theorem test_witness_ErrorsIgnoreDataValues :
    let s := framed refFrame 0x7F 0x00
    let t := framed #v[0, 0, 0, 0, 0, 0, 0] 0x7F 0x03
    s ≠ t ∧ s.frameVld = t.frameVld ∧ s.valid.getLsbD 1 = t.valid.getLsbD 1 ∧ s.err = t.err ∧
      s.errInfo = t.errInfo ∧ s.pending = t.pending := by
  refine ⟨?_, rfl, rfl, rfl, rfl, rfl⟩
  intro h
  exact absurd (congrArg State.config h) (by decide)

theorem test_witness_ValidBitsAreSetByTheirOperations :
    Instr.measure ≠ .clear ∧ isPerformed Instr.measure.mnemonic State.reset = false ∧
    isPerformed Instr.measure.mnemonic (framed refFrame 0x7F 0x00) = true := by decide

theorem test_witness_FlagsHaveFewWritersAndNoReader :
    Instr.check.mnemonic ∉ [Mnemonic.stat, .decode, .measure, .clear] ∧
    (Instr.stat 0xFF).mnemonic ∉ [Mnemonic.check, .measure, .clear] := by decide

theorem test_witness_CrcAccumulatorIsSeparate :
    Instr.check.mnemonic ∉ [Mnemonic.crcInit, .crcByte, .clear] := by decide

theorem test_witness_ResultsAreSnapshots :
    ∀ w, Access.write 0x08 (.b1 0xAD) ≠ .write 0x00 (.b2 w) := by
  intro w h
  cases h

theorem test_witness_PseudoInstructionsDoWhatTheyName :
    State.reset.pending = [] ∧ Line.wf (.loadFrame [0x1C, 0x08, 0x00, 0x3F, 0x8C, 0x73, 0x36]) = true ∧
    Line.wf (.crcRun [0x1C]) = true ∧ Line.wf (.crcRun [0x00, 0xFF]) = true ∧ Line.wf (.poll 0xFF) = true := by
  exact ⟨rfl, rfl, rfl, rfl, rfl⟩

end Sys2Proof.Tests
end

section
/-! Steps go on (`00_scope.md` R19, `20_memory.md` R60): nothing the block does touches what the host has still to
issue, so a step takes exactly the oldest event off it. -/

namespace Sys2Proof.Machine

/-! ## The pending events are the host's -/

@[simp] theorem readEffect_pending (addr : Byte) (n : Width) (s : State) :
    (readEffect addr n s).pending = s.pending := by
  unfold readEffect
  split
  · exact raiseError_pending _ _ s
  · rfl

@[simp] theorem memRead_pending (addr : Byte) (n : Width) (s : State) :
    (memRead addr n s).pending = s.pending := by
  simp [memRead]

@[simp] theorem readOverReset_pending (n : Width) (s : State) : (readOverReset n s).pending = s.pending := rfl

theorem performCommand_pending (w : Word16) (s t : State) (h : performCommand w s = .next t) :
    t.pending = s.pending := by
  rcases performCommand_cases w s t h with ⟨i, -, hi⟩ | ⟨e, -, rfl⟩
  · exact (exec_host_fields i s t hi).left
  · exact raiseError_pending _ w s

theorem memWrite_pending (addr : Byte) (v : Data) (s t : State) (h : memWrite addr v s = .next t) :
    t.pending = s.pending := by
  rcases memWrite_cases addr v s t h with ⟨-, rfl⟩ | ⟨r, -, ⟨-, rfl⟩ | ⟨-, hw⟩ | ⟨-, rfl⟩ | ⟨i, -, rfl⟩⟩
  · exact raiseError_pending _ _ s
  · exact raiseError_pending _ _ s
  · exact performCommand_pending _ s t hw
  · exact writeConfig_pending _ s
  · exact writeFrame_pending i _ s

theorem applyEvent_pending (e : HostEvent) (s t : State) (h : applyEvent e s = .next t) :
    t.pending = s.pending := by
  rcases applyEvent_cases e s t h with
    ⟨addr, n, -, rfl⟩ | ⟨addr, v, -, hw⟩ | ⟨-, rfl⟩ | ⟨addr, n, -, rfl⟩ | ⟨addr, v, -, rfl⟩
  · exact memRead_pending addr n s
  · exact memWrite_pending addr v s t hw
  · exact resetBlock_pending s
  · exact readOverReset_pending n (resetBlock s)
  · exact resetBlock_pending s

/-! ## Steps -/

theorem step_next (s : State) : ∃ t, step s = .next t := by
  cases hp : s.pending with
  | nil => exact ⟨s, step_idle s hp⟩
  | cons e rest =>
    rw [step_event s e rest hp]
    exact applyEvent_next e _

theorem step_pending (s t : State) (h : step s = .next t) : t.pending = s.pending.tail := by
  rcases step_cases s t h with ⟨hp, rfl⟩ | ⟨e, rest, hp, he⟩
  · rw [hp, List.tail_nil]
  · rw [hp, List.tail_cons]
    exact applyEvent_pending e _ t he

/-- Settles O8: a step answers a next state in every case, and its event leaves the younger events alone. -/
theorem everyStepGoesOn : Obligations.EveryStepGoesOn := by
  intro s
  obtain ⟨t, h⟩ := step_next s
  exact ⟨t, h, step_pending s t h⟩

/-- Settles O7: the idle equation of `step`. -/
theorem idleStepChangesNothing : Obligations.IdleStepChangesNothing :=
  step_idle

end Sys2Proof.Machine
end

section
/-! The register invariants (`10_state.md` R48) and the reset values under a clear valid bit (R28 to R30): each shared
operation keeps them, and with `step_keeps` so does every step. -/

namespace Sys2Proof.Machine

/-! ## Bit fields that stay zero -/

theorem extractLsb'_eq_zero_iff {w : Nat} (v : BitVec w) (a n : Nat) :
    v.extractLsb' a n = 0 ↔ ∀ j < n, v.getLsbD (a + j) = false := by
  constructor
  · intro h j hj
    simpa [hj] using congrArg (·.getLsbD j) h
  · intro h
    refine BitVec.eq_of_getLsbD_eq fun j hj => ?_
    simp [hj, h j hj]

/-- Setting valid bits keeps VALID[7:5] zero (`10_state.md` R28). -/
theorem setValid_reserved (mask valid : BitVec 8) (hm : mask.extractLsb' 5 3 = 0) (hv : valid.extractLsb' 5 3 = 0) :
    (setValid mask valid).extractLsb' 5 3 = 0 := by
  rw [extractLsb'_eq_zero_iff] at *
  intro j hj
  rw [getLsbD_setValid, hv j hj, hm j hj, Bool.or_false]

/-- A status decode keeps FLAGS[7:3] zero (`10_state.md` R33). -/
theorem statusFlags_reserved (status flags : BitVec 8) (h : flags.extractLsb' 3 5 = 0) :
    (statusFlags status flags).extractLsb' 3 5 = 0 := by
  rw [extractLsb'_eq_zero_iff] at *
  intro j hj
  rw [getLsbD_statusFlags, if_neg (by omega), if_neg (by omega), h j hj]

/-- A frame check keeps FLAGS[7:3] zero (`10_state.md` R33). -/
theorem crcFlag_reserved (ok : Bool) (flags : BitVec 8) (h : flags.extractLsb' 3 5 = 0) :
    (crcFlag ok flags).extractLsb' 3 5 = 0 := by
  rw [extractLsb'_eq_zero_iff] at *
  intro j hj
  rw [getLsbD_crcFlag, if_neg (by omega), h j hj]

/-- RAW_RH and RAW_T hold 20-bit values (`10_state.md` R36, R37). -/
theorem setWidth_raw_reserved (r : BitVec 20) : (r.setWidth 32).extractLsb' 20 12 = 0 := by
  rw [extractLsb'_eq_zero_iff]
  intro j hj
  rw [BitVec.getLsbD_setWidth, BitVec.getLsbD_of_ge r _ (by omega), Bool.and_false]

/-- A CONFIG write leaves CONFIG[7:2] zero (`10_state.md` R25). -/
theorem writeConfig_reserved (v : Byte) (s : State) : (writeConfig v s).config.extractLsb' 2 6 = 0 := by
  rw [extractLsb'_eq_zero_iff]
  intro j hj
  rw [writeConfig_config, BitVec.getLsbD_setWidth, BitVec.getLsbD_of_ge _ _ (by omega), Bool.and_false]

/-! ## Single flags and valid bits -/

theorem statusFlags_busy (status flags : BitVec 8) : (statusFlags status flags).getLsbD 0 = status.getLsbD 7 :=
  getLsbD_statusFlags status flags 0

theorem statusFlags_cal (status flags : BitVec 8) : (statusFlags status flags).getLsbD 1 = status.getLsbD 3 :=
  getLsbD_statusFlags status flags 1

theorem statusFlags_crcOk (status flags : BitVec 8) : (statusFlags status flags).getLsbD 2 = flags.getLsbD 2 :=
  getLsbD_statusFlags status flags 2

theorem crcFlag_busy (ok : Bool) (flags : BitVec 8) : (crcFlag ok flags).getLsbD 0 = flags.getLsbD 0 :=
  getLsbD_crcFlag ok flags 0

theorem crcFlag_cal (ok : Bool) (flags : BitVec 8) : (crcFlag ok flags).getLsbD 1 = flags.getLsbD 1 :=
  getLsbD_crcFlag ok flags 1

theorem crcFlag_crcOk (ok : Bool) (flags : BitVec 8) : (crcFlag ok flags).getLsbD 2 = ok :=
  getLsbD_crcFlag ok flags 2

/-- A valid bit that is set, and was not among those just set, was set before. -/
theorem getLsbD_of_setValid_true (mask valid : BitVec 8) (j : Nat) (hm : mask.getLsbD j = false)
    (h : (setValid mask valid).getLsbD j = true) : valid.getLsbD j = true := by
  rwa [getLsbD_setValid, hm, Bool.or_false] at h

/-- A valid bit that is still clear after some were set was clear before, and is none of those. -/
theorem getLsbD_of_setValid_false (mask valid : BitVec 8) (j : Nat) (h : (setValid mask valid).getLsbD j = false) :
    valid.getLsbD j = false ∧ mask.getLsbD j = false := by
  rwa [getLsbD_setValid, Bool.or_eq_false_iff] at h

/-! ## The ranges of the rounded values (`41_scale.md` R126) -/

theorem raw20_lt (r : BitVec 32) : raw20 r < 2 ^ 20 := (r.extractLsb' 0 20).isLt

theorem humidityPercent_le (humRnd : Bool) (rh : Nat) (h : rh < 2 ^ 20) : (humidityPercent humRnd rh).toNat ≤ 100 := by
  have hr : (if humRnd then rh * 100 / 2 ^ 20 else (rh * 100 + 2 ^ 19) / 2 ^ 20) ≤ 100 := by
    split <;> omega
  simp only [humidityPercent, BitVec.toNat_ofNat]
  omega

theorem temperatureTenths_range (t : Nat) (h : t < 2 ^ 20) :
    -500 ≤ (temperatureTenths t).toInt ∧ (temperatureTenths t).toInt ≤ 1500 := by
  simp only [temperatureTenths]
  generalize hn : ((t : Int) * 2000 - 500 * 2 ^ 20) = nt
  have hv : -500 ≤ nt.sign * ((nt.natAbs + 2 ^ 19) / 2 ^ 20 : Nat) ∧
      nt.sign * ((nt.natAbs + 2 ^ 19) / 2 ^ 20 : Nat) ≤ 1500 := by
    rcases Int.lt_trichotomy nt 0 with hlt | heq | hgt
    · rw [Int.sign_eq_neg_one_of_neg hlt]
      omega
    · rw [heq]
      decide
    · rw [Int.sign_eq_one_of_pos hgt]
      omega
  rw [BitVec.toInt_ofInt_eq_self (by decide) (by omega) (by omega)]
  exact hv

/-! ## ERR after an error (`60_exceptions.md` R184) -/

/-- The first error's cause is kept. -/
theorem raiseError_cause (c : ErrCause) (info : BitVec 16) (s : State) :
    (raiseError c info s).err.extractLsb' 0 4 =
      if s.err.extractLsb' 0 4 = 0 then causeCode c else s.err.extractLsb' 0 4 := by
  obtain ⟨-, hfirst, hlater⟩ := raiseError_recorded c info s
  split
  · next h0 => exact (hfirst h0).left
  · next h0 =>
    refine BitVec.eq_of_getLsbD_eq fun j hj => ?_
    have hj7 : (0 + j == 7) = false := beq_eq_false_iff_ne.mpr (by omega)
    rw [BitVec.getLsbD_extractLsb', BitVec.getLsbD_extractLsb', (hlater h0).left (0 + j) (by omega), hj7, Bool.or_false]

/-- After an error a cause is recorded, and it is one of R181. -/
theorem raiseError_cause_range (c : ErrCause) (info : BitVec 16) (s : State)
    (h : (s.err.extractLsb' 0 4).toNat ≤ 6) :
    (raiseError c info s).err.extractLsb' 0 4 ≠ 0 ∧ ((raiseError c info s).err.extractLsb' 0 4).toNat ≤ 6 := by
  rw [raiseError_cause]
  split
  · exact ⟨by cases c <;> decide, (code_range c).right⟩
  · next h0 => exact ⟨h0, h⟩

/-- Recording an error keeps ERR[6:4] zero (`10_state.md` R26). -/
theorem raiseError_err_reserved (c : ErrCause) (info : BitVec 16) (s : State) (h : s.err.extractLsb' 4 3 = 0) :
    (raiseError c info s).err.extractLsb' 4 3 = 0 := by
  rw [extractLsb'_eq_zero_iff] at *
  intro j hj
  rw [← h j hj]
  obtain ⟨-, hfirst, hlater⟩ := raiseError_recorded c info s
  by_cases h0 : s.err.extractLsb' 0 4 = 0
  · obtain ⟨-, hhigh, -⟩ := hfirst h0
    have hbit := congrArg (·.getLsbD j) hhigh
    simpa only [BitVec.getLsbD_extractLsb', decide_eq_true (show j < 4 by omega), Bool.true_and] using hbit
  · have hj7 : (4 + j == 7) = false := beq_eq_false_iff_ne.mpr (by omega)
    rw [(hlater h0).left (4 + j) (by omega), hj7, Bool.or_false]

/-! ## The operations keep the register invariants -/

/-- `RegInv` speaks of registers only, so reads and pending events do not matter to it. -/
theorem regInv_host (s : State) (pending : List HostEvent) (reads : List Data) (k : Nat) (h : RegInv s) :
    RegInv { s with pending := pending, reads := reads, freeCount := k } := { h with }

theorem regInv_reset (events : List HostEvent) (reads : List Data) (k : Nat) :
    RegInv { State.reset with pending := events, reads := reads, freeCount := k } :=
  regInv_host State.reset _ _ _ (by constructor <;> decide)

theorem regInv_raiseError (c : ErrCause) (info : BitVec 16) (s : State) (h : RegInv s) :
    RegInv (raiseError c info s) := by
  have hreserved := raiseError_err_reserved c info s h.err_reserved
  obtain ⟨hne, hle⟩ := raiseError_cause_range c info s h.cause_known
  have hframe := (raiseError_recorded c info s).left
  revert hreserved hne hle
  rw [hframe]
  intro hreserved hne hle
  exact { h with
    err_reserved := hreserved
    cause_known := hle
    multi_cause := fun _ => hne
    info_cause := fun hz => absurd hz hne }

theorem regInv_decodeStatus (status : BitVec 8) (s : State) (h : RegInv s) : RegInv (decodeStatus status s) :=
  { h with
    valid_reserved := setValid_reserved _ _ (by decide) h.valid_reserved
    flags_reserved := statusFlags_reserved _ _ h.flags_reserved
    status_flags := fun _ => ⟨statusFlags_busy status s.flags, statusFlags_cal status s.flags⟩
    crc_flag := fun hv => by
      rw [decodeStatus_flags, statusFlags_crcOk]
      exact h.crc_flag (getLsbD_of_setValid_true _ _ _ rfl hv) }

theorem regInv_decodeRaw (rh t : BitVec 20) (s : State) (h : RegInv s) : RegInv (decodeRaw rh t s) :=
  { h with
    valid_reserved := setValid_reserved _ _ (by decide) h.valid_reserved
    rawRh_reserved := setWidth_raw_reserved rh
    rawT_reserved := setWidth_raw_reserved t
    status_flags := fun hv => h.status_flags (getLsbD_of_setValid_true _ _ _ rfl hv)
    crc_flag := fun hv => h.crc_flag (getLsbD_of_setValid_true _ _ _ rfl hv) }

theorem regInv_recordCheck (s : State) (h : RegInv s) : RegInv (recordCheck s) :=
  { h with
    valid_reserved := setValid_reserved _ _ (by decide) h.valid_reserved
    flags_reserved := crcFlag_reserved _ _ h.flags_reserved
    status_flags := fun hv => by
      rw [recordCheck_flags, crcFlag_busy, crcFlag_cal]
      exact h.status_flags (getLsbD_of_setValid_true _ _ _ rfl hv)
    crc_flag := fun _ => crcFlag_crcOk _ s.flags }

theorem regInv_recordScaled (rh t : Nat) (s : State) (h : RegInv s) : RegInv (recordScaled rh t s) :=
  { h with
    valid_reserved := setValid_reserved _ _ (by decide) h.valid_reserved
    status_flags := fun hv => h.status_flags (getLsbD_of_setValid_true _ _ _ rfl hv)
    crc_flag := fun hv => h.crc_flag (getLsbD_of_setValid_true _ _ _ rfl hv) }

theorem regInv_recordRounded (rh t : Nat) (s : State) (hrh : rh < 2 ^ 20) (ht : t < 2 ^ 20) (h : RegInv s) :
    RegInv (recordRounded rh t s) :=
  { h with
    valid_reserved := setValid_reserved _ _ (by decide) h.valid_reserved
    status_flags := fun hv => h.status_flags (getLsbD_of_setValid_true _ _ _ rfl hv)
    humPct_range := humidityPercent_le _ rh hrh
    tempDeci_range := temperatureTenths_range t ht
    crc_flag := fun hv => h.crc_flag (getLsbD_of_setValid_true _ _ _ rfl hv) }

theorem regInv_measureFrame (s : State) (h : RegInv s) : RegInv (measureFrame s) :=
  regInv_recordRounded _ _ _ (BitVec.isLt _) (BitVec.isLt _)
    (regInv_recordScaled _ _ _ (regInv_recordCheck _ (regInv_decodeRaw _ _ _ (regInv_decodeStatus _ _ h))))

theorem regInv_performedState (i : Instr) (s : State) (h : RegInv s) : RegInv (performedState i s) := by
  cases i with
  | nop => exact h
  | clear => exact { regInv_reset s.pending s.reads s.freeCount with config_reserved := h.config_reserved }
  | stat imm => exact regInv_decodeStatus imm s h
  | decode => exact regInv_decodeRaw _ _ _ (regInv_decodeStatus _ s h)
  | scale => exact regInv_recordScaled _ _ s h
  | round => exact regInv_recordRounded _ _ s (raw20_lt _) (raw20_lt _) h
  | crcInit => exact { h with }
  | crcByte imm => exact { h with }
  | check => exact regInv_recordCheck s h
  | measure => exact regInv_measureFrame s h

theorem regInv_writeConfig (v : Byte) (s : State) (h : RegInv s) : RegInv (writeConfig v s) :=
  { h with config_reserved := writeConfig_reserved v s }

theorem regInv_writeFrame (i : Fin 7) (v : Byte) (s : State) (h : RegInv s) : RegInv (writeFrame i v s) := by
  refine { h with frameVld_reserved := ?_ }
  rw [writeFrame_frameVld, getLsbD_setBit, if_neg (by omega)]
  exact h.frameVld_reserved

/-- Settles O41: each operation a step is made of keeps the invariants of R48. -/
theorem everyStepKeepsRegisterInvariant : Obligations.EveryStepKeepsRegisterInvariant := by
  intro s t hs ht
  exact step_keeps RegInv regInv_host regInv_raiseError (fun i s h _ => regInv_performedState i s h)
    regInv_writeConfig regInv_writeFrame (fun s _ => regInv_reset s.pending s.reads s.freeCount) s t hs ht

/-! ## The operations keep the reset values under a clear valid bit -/

theorem unsetInv_host (s : State) (pending : List HostEvent) (reads : List Data) (k : Nat) (h : UnsetInv s) :
    UnsetInv { s with pending := pending, reads := reads, freeCount := k } := { h with }

theorem unsetInv_reset (events : List HostEvent) (reads : List Data) (k : Nat) :
    UnsetInv { State.reset with pending := events, reads := reads, freeCount := k } :=
  unsetInv_host State.reset _ _ _ (by constructor <;> decide)

theorem unsetInv_raiseError (c : ErrCause) (info : BitVec 16) (s : State) (h : UnsetInv s) :
    UnsetInv (raiseError c info s) := by
  by_cases h0 : s.cause = 0
  · rw [raiseError_first c info s h0]
    exact { h with }
  · rw [raiseError_later c info s h0]
    exact { h with }

theorem unsetInv_decodeStatus (status : BitVec 8) (s : State) (h : UnsetInv s) :
    UnsetInv (decodeStatus status s) where
  stat hv := absurd (getLsbD_of_setValid_false _ _ _ hv).right (by decide)
  raw hv := h.raw (getLsbD_of_setValid_false _ _ _ hv).left
  crc hv := by
    rw [decodeStatus_flags, statusFlags_crcOk]
    exact h.crc (getLsbD_of_setValid_false _ _ _ hv).left
  scale hv := h.scale (getLsbD_of_setValid_false _ _ _ hv).left
  round hv := h.round (getLsbD_of_setValid_false _ _ _ hv).left
  frame := h.frame

theorem unsetInv_decodeRaw (rh t : BitVec 20) (s : State) (h : UnsetInv s) : UnsetInv (decodeRaw rh t s) where
  stat hv := h.stat (getLsbD_of_setValid_false _ _ _ hv).left
  raw hv := absurd (getLsbD_of_setValid_false _ _ _ hv).right (by decide)
  crc hv := h.crc (getLsbD_of_setValid_false _ _ _ hv).left
  scale hv := h.scale (getLsbD_of_setValid_false _ _ _ hv).left
  round hv := h.round (getLsbD_of_setValid_false _ _ _ hv).left
  frame := h.frame

theorem unsetInv_recordCheck (s : State) (h : UnsetInv s) : UnsetInv (recordCheck s) where
  stat hv := by
    rw [recordCheck_flags, crcFlag_busy, crcFlag_cal]
    exact h.stat (getLsbD_of_setValid_false _ _ _ hv).left
  raw hv := h.raw (getLsbD_of_setValid_false _ _ _ hv).left
  crc hv := absurd (getLsbD_of_setValid_false _ _ _ hv).right (by decide)
  scale hv := h.scale (getLsbD_of_setValid_false _ _ _ hv).left
  round hv := h.round (getLsbD_of_setValid_false _ _ _ hv).left
  frame := h.frame

theorem unsetInv_recordScaled (rh t : Nat) (s : State) (h : UnsetInv s) : UnsetInv (recordScaled rh t s) where
  stat hv := h.stat (getLsbD_of_setValid_false _ _ _ hv).left
  raw hv := h.raw (getLsbD_of_setValid_false _ _ _ hv).left
  crc hv := h.crc (getLsbD_of_setValid_false _ _ _ hv).left
  scale hv := absurd (getLsbD_of_setValid_false _ _ _ hv).right (by decide)
  round hv := h.round (getLsbD_of_setValid_false _ _ _ hv).left
  frame := h.frame

theorem unsetInv_recordRounded (rh t : Nat) (s : State) (h : UnsetInv s) : UnsetInv (recordRounded rh t s) where
  stat hv := h.stat (getLsbD_of_setValid_false _ _ _ hv).left
  raw hv := h.raw (getLsbD_of_setValid_false _ _ _ hv).left
  crc hv := h.crc (getLsbD_of_setValid_false _ _ _ hv).left
  scale hv := h.scale (getLsbD_of_setValid_false _ _ _ hv).left
  round hv := absurd (getLsbD_of_setValid_false _ _ _ hv).right (by decide)
  frame := h.frame

theorem unsetInv_measureFrame (s : State) (h : UnsetInv s) : UnsetInv (measureFrame s) :=
  unsetInv_recordRounded _ _ _
    (unsetInv_recordScaled _ _ _ (unsetInv_recordCheck _ (unsetInv_decodeRaw _ _ _ (unsetInv_decodeStatus _ _ h))))

theorem unsetInv_performedState (i : Instr) (s : State) (h : UnsetInv s) : UnsetInv (performedState i s) := by
  cases i with
  | nop => exact h
  | clear => exact { unsetInv_reset s.pending s.reads s.freeCount with }
  | stat imm => exact unsetInv_decodeStatus imm s h
  | decode => exact unsetInv_decodeRaw _ _ _ (unsetInv_decodeStatus _ s h)
  | scale => exact unsetInv_recordScaled _ _ s h
  | round => exact unsetInv_recordRounded _ _ s h
  | crcInit => exact { h with }
  | crcByte imm => exact { h with }
  | check => exact unsetInv_recordCheck s h
  | measure => exact unsetInv_measureFrame s h

theorem unsetInv_writeConfig (v : Byte) (s : State) (h : UnsetInv s) : UnsetInv (writeConfig v s) := { h with }

theorem unsetInv_writeFrame (i : Fin 7) (v : Byte) (s : State) (h : UnsetInv s) : UnsetInv (writeFrame i v s) := by
  refine { h with frame := fun j hj => ?_ }
  rw [writeFrame_frameVld, getLsbD_setBit] at hj
  rw [writeFrame_getElem]
  by_cases hij : j = i
  · have hlt : i.val < 8 := by omega
    simp [hij, hlt] at hj
  · have hval : ¬(j.val = i.val ∧ j.val < 8) := fun hc => hij (Fin.ext hc.left)
    rw [if_neg hval] at hj
    rw [if_neg hij]
    exact h.frame j hj

/-- Settles O42: each operation a step is made of sets the valid bit of every register it writes. -/
theorem everyStepKeepsUnsetInvariant : Obligations.EveryStepKeepsUnsetInvariant := by
  intro s t hs ht
  exact step_keeps UnsetInv unsetInv_host unsetInv_raiseError (fun i s h _ => unsetInv_performedState i s h)
    unsetInv_writeConfig unsetInv_writeFrame (fun s _ => unsetInv_reset s.pending s.reads s.freeCount) s t hs ht

/-! ## Reachable states -/

/-- Settles O40: both invariants speak of registers only, and the reset values meet them. -/
theorem invariantsHoldAtReset : Obligations.InvariantsHoldAtReset := by
  intro events k
  exact ⟨regInv_reset events [] k, unsetInv_reset events [] k⟩

/-- Settles O43, by induction on the run: O40 is its start, O41 and O42 its steps. -/
theorem reachableStatesMeetInvariants : Obligations.ReachableStatesMeetInvariants := by
  intro s hs
  induction hs with
  | start events k => exact invariantsHoldAtReset events k
  | next s t _ hstep ih =>
    exact ⟨everyStepKeepsRegisterInvariant s t ih.left hstep, everyStepKeepsUnsetInvariant s t ih.right hstep⟩

end Sys2Proof.Machine
end

section
/-! The register map read in both directions (`10_state.md` R22, `20_memory.md` R53), and what an access at a register
does (`20_memory.md` R54, R55). -/

namespace Sys2Proof.Machine

/-! ## The register map -/

theorem admitted_offset_width (r : Reg) : admitted r.offset r.width = some r := by
  cases r with
  | frame i => revert i; decide
  | _ => rfl

theorem offset_of_regAt (addr : Byte) (r : Reg) (h : regAt addr = some r) : r.offset = addr := by
  revert r
  revert addr
  decide

/-- An access is admitted exactly at a register's offset with its width (`20_memory.md` R53). -/
theorem admitted_eq_some_iff (addr : Byte) (n : Width) (r : Reg) :
    admitted addr n = some r ↔ addr = r.offset ∧ n = r.width := by
  constructor
  · intro h
    unfold admitted at h
    split at h
    · cases h
    · next r' hr' =>
      split at h
      · next hw =>
        obtain rfl := Option.some.inj h
        exact ⟨(offset_of_regAt addr _ hr').symm, hw.symm⟩
      · cases h
  · rintro ⟨rfl, rfl⟩
    exact admitted_offset_width r

/-- A decoded word is the encoding of its command (`30_encoding.md` R71, R78). -/
theorem encode_of_decode (w : Word16) (i : Instr) (h : decode w = .ok i) : encode i = w := by
  unfold decode at h
  split at h
  · cases h
  · next m hm =>
    split at h
    · cases h
    · next himm =>
      obtain rfl := Except.ok.inj h
      have himm : m.takesImm = true ∨ immField w = 0 := by
        by_contra hc
        exact himm (by simpa using hc)
      rw [encode, mnemonic_instr, instr_imm m _ himm, encodeWord, op_of_mnemonicOf _ m hm, imm_append_op]

/-! ## Admitted accesses -/

theorem memRead_register (r : Reg) (s : State) : memRead r.offset r.width s = recordRead (s.readReg r) s := by
  simp only [memRead, readValue, readEffect, admitted_offset_width]

theorem memWrite_command (w : Word16) (s : State) : memWrite 0x00 (.b2 w) s = performCommand w s := by
  have hw : (Data.b2 w).bits.setWidth 16 = w := BitVec.setWidth_setWidth_of_le w (by decide)
  exact congrArg (performCommand · s) hw

theorem memWrite_config (v : Byte) (s : State) : memWrite 0x02 (.b1 v) s = .next (writeConfig v s) := by
  have hv : (Data.b1 v).bits.setWidth 8 = v := BitVec.setWidth_setWidth_of_le v (by decide)
  exact congrArg (fun b => Host.Outcome.next (writeConfig b s)) hv

theorem memWrite_frame (i : Fin 7) (v : Byte) (s : State) :
    memWrite (Reg.frame i).offset (.b1 v) s = .next (writeFrame i v s) := by
  have hv : (Data.b1 v).bits.setWidth 8 = v := BitVec.setWidth_setWidth_of_le v (by decide)
  have ha : admitted (Reg.frame i).offset (Data.b1 v).width = some (.frame i) := admitted_offset_width (.frame i)
  simp only [memWrite, ha, Reg.writeTarget, hv]

theorem offset_frame (i : Fin 7) : (Reg.frame i).offset = BitVec.ofNat 8 (0x08 + i.val) := by
  revert i
  decide

theorem exists_b2_of_width (v : Data) (h : v.width = .w2) : ∃ w, v = .b2 w := by
  cases v with
  | b2 w => exact ⟨w, rfl⟩
  | b1 _ | b4 _ | b8 _ => cases h

/-- An admitted write to CMD is the write of a word at offset 0x00. -/
theorem write_of_admitted_cmd (addr : Byte) (v : Data) (h : admitted addr v.width = some .cmd) :
    addr = 0x00 ∧ ∃ w, v = .b2 w := by
  obtain ⟨haddr, hwidth⟩ := (admitted_eq_some_iff addr v.width .cmd).mp h
  exact ⟨haddr, exists_b2_of_width v hwidth⟩

theorem exists_b1_of_width (v : Data) (h : v.width = .w1) : ∃ b, v = .b1 b := by
  cases v with
  | b1 b => exact ⟨b, rfl⟩
  | b2 _ | b4 _ | b8 _ => cases h

/-! ## Reads of registers -/

/-- The registers in the order of R22. -/
def registers : List Reg :=
  [.cmd, .config, .err, .errInfo, .valid, .frameVld, .frame 0, .frame 1, .frame 2, .frame 3, .frame 4, .frame 5,
   .frame 6, .crcAcc, .statusRaw, .flags, .crcCalc, .crcRecv, .rawRh, .rawT, .humPct, .tempDeci, .humF64, .tempF64]

/-- Masking off bits that are zero changes nothing. -/
theorem and_mask_eq_self {w : Nat} (v m : BitVec w) (a n : Nat) (hv : v.extractLsb' a n = 0)
    (hm : ∀ j < w, m.getLsbD j = false → a ≤ j ∧ j - a < n) : v &&& m = v := by
  rw [extractLsb'_eq_zero_iff] at hv
  refine BitVec.eq_of_getLsbD_eq fun j hj => ?_
  rw [BitVec.getLsbD_and]
  cases hmj : m.getLsbD j
  · obtain ⟨hle, hlt⟩ := hm j hj hmj
    have h0 := hv (j - a) hlt
    rw [Nat.add_sub_cancel' hle] at h0
    rw [h0, Bool.and_false]
  · rw [Bool.and_true]

/-- Under the register invariants a read returns every register as it is held (`20_memory.md` R54, `10_state.md` R48). -/
theorem registerRows_eq (s : State) (h : RegInv s) :
    registerRows s = registers.map fun r => (r.offset, s.readReg r) := by
  have hconfig : s.config &&& 0x03 = s.config := and_mask_eq_self _ _ 2 6 h.config_reserved (by decide)
  have herr : s.err &&& 0x8F = s.err := and_mask_eq_self _ _ 4 3 h.err_reserved (by decide)
  have hvalid : s.valid &&& 0x1F = s.valid := and_mask_eq_self _ _ 5 3 h.valid_reserved (by decide)
  have hvld : s.frameVld.extractLsb' 7 1 = 0 := by
    rw [extractLsb'_eq_zero_iff]
    intro j hj
    obtain rfl : j = 0 := by omega
    exact h.frameVld_reserved
  have hframeVld : s.frameVld &&& 0x7F = s.frameVld := and_mask_eq_self _ _ 7 1 hvld (by decide)
  have hflags : s.flags &&& 0x07 = s.flags := and_mask_eq_self _ _ 3 5 h.flags_reserved (by decide)
  have hrawRh : s.rawRh &&& 0x000FFFFF = s.rawRh := and_mask_eq_self _ _ 20 12 h.rawRh_reserved (by decide)
  have hrawT : s.rawT &&& 0x000FFFFF = s.rawT := and_mask_eq_self _ _ 20 12 h.rawT_reserved (by decide)
  have hmasked : registers.map (fun r => (r.offset, s.readReg r)) =
      registerRows { s with
        config := s.config &&& 0x03, err := s.err &&& 0x8F, valid := s.valid &&& 0x1F
        frameVld := s.frameVld &&& 0x7F, flags := s.flags &&& 0x07
        rawRh := s.rawRh &&& 0x000FFFFF, rawT := s.rawT &&& 0x000FFFFF } := rfl
  rw [hmasked, hconfig, herr, hvalid, hframeVld, hflags, hrawRh, hrawT]

/-- Settles O32: the row is that of a register, and the register's read is admitted. -/
theorem registerReadsReturnRegisters : Obligations.RegisterReadsReturnRegisters := by
  intro s addr d rest hs hrow hp
  rw [registerRows_eq s hs] at hrow
  obtain ⟨r, -, hr⟩ := List.mem_map.mp hrow
  obtain ⟨rfl, rfl⟩ := Prod.mk.inj hr
  rw [step_event s _ rest hp, readReg_width]
  exact congrArg Host.Outcome.next (memRead_register r _)

/-! ## Writes of registers -/

theorem getLsbD_setBit_true (v : BitVec 8) (i j : Nat) (hj : j < 8) :
    (setBit v i true).getLsbD j = (v.getLsbD j || j == i) := by
  rw [getLsbD_setBit]
  by_cases hji : j = i
  · rw [if_pos ⟨hji, hj⟩, beq_iff_eq.mpr hji, Bool.or_true]
  · rw [if_neg (fun h => hji h.left), beq_eq_false_iff_ne.mpr hji, Bool.or_false]

/-- Settles O6: the write of a word to CMD performs the command it decodes to. -/
theorem stepRunsDecodedCommand : Obligations.StepRunsDecodedCommand := by
  intro s w i hw
  have hstep : ∀ (s : State) rest, s.pending = .access (.write 0x00 (.b2 w)) :: rest →
      step s = exec i { s with pending := rest } := by
    intro s rest hp
    rw [step_event s _ rest hp]
    exact (memWrite_command w _).trans (performCommand_ok w i _ hw)
  refine ⟨hstep s, ?_⟩
  have hword : tableWord 16 w.toNat = w := by
    rw [tableWord, Nat.mod_eq_of_lt w.isLt, BitVec.ofNat_toNat, BitVec.setWidth_eq]
  have hp : (s.withFetchWord 16 w.toNat).pending = .access (.write 0x00 (.b2 w)) :: s.pending := by
    rw [State.withFetchWord, hword]
    rfl
  exact hstep _ _ hp

/-- Bits 1:0 of the written value, and 0 above them (`10_state.md` R25). -/
theorem getLsbD_writeConfig (v : Byte) (s : State) (j : Nat) (hj : j < 8) :
    (writeConfig v s).config.getLsbD j = (decide (j < 2) && v.getLsbD j) := by
  simp [hj]

/-- Settles O35: the write keeps two bits, so the read, which masks the others, returns CONFIG as it is held. -/
theorem configWriteKeepsTwoBits : Obligations.ConfigWriteKeepsTwoBits := by
  intro s v rest hp
  have hmask : ∀ s : State, (writeConfig v s).config &&& 0x03 = (writeConfig v s).config := fun s =>
    and_mask_eq_self _ _ 2 6 (writeConfig_reserved v s) (by decide)
  refine ⟨writeConfig v { s with pending := .access (.read 0x02 .w1) :: rest }, _, ?_, rfl,
    fun j hj => getLsbD_writeConfig v _ j hj, ?_, rfl⟩
  · rw [step_event s _ _ hp]
    exact memWrite_config v _
  · rw [step_event (writeConfig v _) _ rest rfl]
    refine congrArg Host.Outcome.next ((memRead_register .config _).trans ?_)
    simp only [recordRead, State.readReg]
    rw [hmask]
    rfl

/-- Settles O36: the write is that of frame byte `i`. -/
theorem frameWriteLoadsOneByte : Obligations.FrameWriteLoadsOneByte := by
  intro s i v rest hp
  rw [← offset_frame] at hp
  refine ⟨writeFrame i v { s with pending := rest }, ?_, rfl, fun j => writeFrame_getElem i j v _, ?_⟩
  · rw [step_event s _ rest hp]
    exact memWrite_frame i v _
  · intro j hj
    exact getLsbD_setBit_true s.frameVld i.val j hj

end Sys2Proof.Machine
end

section
/-! Who writes what (`10_state.md` R29, R31, R43, R44, R46): what each command and access leaves unchanged, and what it
does not read. -/

namespace Sys2Proof.Machine

/-! ## Recording an error writes ERR and ERR_INFO and reads nothing else -/

theorem raiseError_eq_record (c : ErrCause) (info : BitVec 16) (s : State) :
    ∃ e d, raiseError c info s = { s with err := e, errInfo := d } :=
  ⟨_, _, (raiseError_recorded c info s).left⟩

theorem readEffect_eq_record (addr : Byte) (n : Width) (s : State) :
    ∃ e d, readEffect addr n s = { s with err := e, errInfo := d } := by
  unfold readEffect
  split
  · exact raiseError_eq_record _ _ s
  · exact ⟨s.err, s.errInfo, rfl⟩

/-! ## FRAME_VLD (`10_state.md` R29) -/

theorem performedState_frameVld (i : Instr) (s : State) (h : i ≠ .clear) :
    (performedState i s).frameVld = s.frameVld := by
  cases i with
  | clear => exact absurd rfl h
  | _ => rfl

theorem exec_frameVld (i : Instr) (s t : State) (hi : i ≠ .clear) (h : exec i s = .next t) :
    t.frameVld = s.frameVld := by
  rcases exec_cases i s t h with ⟨-, rfl⟩ | ⟨-, c, -, rfl⟩
  · exact performedState_frameVld i s hi
  · exact raiseError_frameVld c _ s

theorem memRead_frameVld (addr : Byte) (n : Width) (s : State) : (memRead addr n s).frameVld = s.frameVld := by
  obtain ⟨e, d, he⟩ := readEffect_eq_record addr n s
  rw [memRead, recordRead_frameVld, he]

/-- Only the command word 0x0001 is CLEAR (`30_encoding.md` R74). -/
theorem performCommand_frameVld (w : Word16) (s t : State) (hw : w ≠ 0x0001) (h : performCommand w s = .next t) :
    t.frameVld = s.frameVld := by
  rcases performCommand_cases w s t h with ⟨i, hi, he⟩ | ⟨e, -, rfl⟩
  · have hclear : i ≠ .clear := by
      rintro rfl
      exact hw (encode_of_decode w .clear hi).symm
    exact exec_frameVld i s t hclear he
  · exact raiseError_frameVld _ w s

theorem memWrite_frameVld (addr : Byte) (v : Data) (s t : State)
    (hc : clearsErrors (.access (.write addr v)) = false) (h : memWrite addr v s = .next t) :
    ((∀ i, admitted addr v.width ≠ some (.frame i)) ∧ t.frameVld = s.frameVld) ∨
    ∃ i, admitted addr v.width = some (.frame i) ∧ t.frameVld = setBit s.frameVld i.val true := by
  rcases memWrite_cases addr v s t h with ⟨ha, rfl⟩ | ⟨r, ha, ⟨hr, rfl⟩ | ⟨rfl, hw⟩ | ⟨rfl, rfl⟩ | ⟨i, rfl, rfl⟩⟩
  · exact .inl ⟨by simp [ha], raiseError_frameVld _ _ s⟩
  · have hne : ∀ i, r ≠ .frame i := by
      rintro i rfl
      cases hr
    exact .inl ⟨by simpa [ha] using hne, raiseError_frameVld _ _ s⟩
  · obtain ⟨rfl, w, rfl⟩ := write_of_admitted_cmd addr v ha
    have hclear : w ≠ 0x0001 := by
      rintro rfl
      cases hc
    have hbits : (Data.b2 w).bits.setWidth 16 = w := BitVec.setWidth_setWidth_of_le w (by decide)
    rw [hbits] at hw
    exact .inl ⟨by rw [ha]; simp, performCommand_frameVld w s t hclear hw⟩
  · exact .inl ⟨by simp [ha], writeConfig_frameVld _ s⟩
  · exact .inr ⟨i, ha, writeFrame_frameVld i _ s⟩

/-- The event that sets FRAME_VLD bit `j` is the admitted write of frame byte `j` (`10_state.md` R30). -/
theorem frame_write_iff (addr : Byte) (v : Data) (j : Nat) :
    (j < 7 ∧ ∃ b, HostEvent.access (.write addr v) = .access (.write (BitVec.ofNat 8 (0x08 + j)) (.b1 b))) ↔
    ∃ i : Fin 7, i.val = j ∧ admitted addr v.width = some (.frame i) := by
  constructor
  · rintro ⟨hj, b, he⟩
    obtain ⟨rfl, rfl⟩ : addr = _ ∧ v = .b1 b := by simpa using he
    exact ⟨⟨j, hj⟩, rfl, (admitted_eq_some_iff _ _ _).mpr ⟨(offset_frame ⟨j, hj⟩).symm, rfl⟩⟩
  · rintro ⟨i, rfl, ha⟩
    obtain ⟨haddr, hwidth⟩ := (admitted_eq_some_iff addr v.width _).mp ha
    obtain ⟨b, rfl⟩ := exists_b1_of_width v hwidth
    exact ⟨i.isLt, b, by rw [haddr, offset_frame]⟩

/-- Settles O37: of the events other than reset and CLEAR only a frame write touches FRAME_VLD. -/
theorem frameValidBitsFollowWrites : Obligations.FrameValidBitsFollowWrites := by
  intro s e rest hp hc
  obtain ⟨t, ht⟩ := applyEvent_next e { s with pending := rest }
  refine ⟨t, (step_event s e rest hp).trans ht, fun j hj => ?_⟩
  rcases applyEvent_cases e _ t ht with
    ⟨addr, n, rfl, rfl⟩ | ⟨addr, v, rfl, hw⟩ | ⟨rfl, -⟩ | ⟨addr, n, rfl, -⟩ | ⟨addr, v, rfl, -⟩
  · simp [memRead_frameVld]
  · rcases memWrite_frameVld addr v _ t hc hw with ⟨hno, hvld⟩ | ⟨i, hi, hvld⟩
    · have hnot : ¬∃ i : Fin 7, i.val = j ∧ admitted addr v.width = some (.frame i) := by
        rintro ⟨i, -, hi⟩
        exact hno i hi
      rw [hvld, decide_eq_false (mt (frame_write_iff addr v j).mp hnot), Bool.or_false]
    · have hji : (∃ k : Fin 7, k.val = j ∧ admitted addr v.width = some (.frame k)) ↔ j = i.val := by
        simp only [hi, Option.some.injEq, Reg.frame.injEq, exists_eq_right', eq_comm]
      rw [hvld, getLsbD_setBit_true _ _ _ hj, decide_eq_decide.mpr ((frame_write_iff addr v j).trans hji)]
      rfl
  · cases hc
  · cases hc
  · cases hc

/-! ## VALID (`10_state.md` R44) -/

/-- The masks of R28 hold one bit each. -/
theorem getLsbD_masks (j : Nat) (hj : j < 8) :
    vStatMask.getLsbD j = decide (j = 0) ∧ vRawMask.getLsbD j = decide (j = 1) ∧
    vCrcMask.getLsbD j = decide (j = 2) ∧ vScaleMask.getLsbD j = decide (j = 3) ∧
    vRoundMask.getLsbD j = decide (j = 4) := by
  revert j
  decide

/-- A performed command sets exactly the valid bits R44 lists for it. -/
theorem performedState_valid (i : Instr) (s : State) (hi : i ≠ .clear) (j : Nat) (hj : j < 8) :
    (performedState i s).valid.getLsbD j = (s.valid.getLsbD j || (validBitsSet i.mnemonic).contains j) := by
  obtain ⟨hstat, hraw, hcrc, hscale, hround⟩ := getLsbD_masks j hj
  cases i with
  | clear => exact absurd rfl hi
  | nop | crcInit | crcByte _ => simp [performedState, Instr.mnemonic, validBitsSet]
  | stat _ => simp [performedState, Instr.mnemonic, validBitsSet, hstat]
  | decode => simp [performedState, Instr.mnemonic, validBitsSet, hstat, hraw, Bool.or_assoc]
  | scale => simp [performedState, Instr.mnemonic, validBitsSet, hscale]
  | round => simp [performedState, Instr.mnemonic, validBitsSet, hround]
  | check => simp [performedState, Instr.mnemonic, validBitsSet, hcrc]
  | measure =>
    simp [performedState, measureFrame, Instr.mnemonic, validBitsSet, hstat, hraw, hcrc, hscale, hround, Bool.or_assoc]

/-- Settles O49, by the two things a command can do: it is performed, or it records an error. -/
theorem validBitsAreSetByTheirOperations : Obligations.ValidBitsAreSetByTheirOperations := by
  intro i s
  have hreset : ∀ rest, ∃ u, step { s with pending := .reset :: rest } = .next u ∧ u.valid = 0 :=
    fun rest => ⟨_, rfl, rfl⟩
  obtain ⟨t, ht⟩ := exec_next i s
  rcases exec_cases i s t ht with ⟨hp, rfl⟩ | ⟨hp, c, -, rfl⟩
  · refine ⟨_, ht, ?_, fun _ hn => absurd (hp.symm.trans hn) (by decide), ?_, hreset⟩
    · rintro rfl
      rfl
    · intro hi _ j hj
      exact performedState_valid i s hi j hj
  · refine ⟨_, ht, ?_, fun _ _ => raiseError_valid c _ s, fun _ hn => absurd (hp.symm.trans hn) (by decide), hreset⟩
    rintro rfl
    cases hp

/-! ## Two runs of a command, from states that differ in one register -/

/-- The cause a command that is not performed records depends on the command only. -/
theorem exec_unperformed_cause (i : Instr) :
    ∃ c, ∀ s, isPerformed i.mnemonic s = false → exec i s = .next (raiseError c (encode i) s) := by
  cases i with
  | decode => exact ⟨_, fun s h => exec_decode_unloaded s (beq_eq_false_iff_ne.mp h)⟩
  | check => exact ⟨_, fun s h => exec_check_unloaded s (beq_eq_false_iff_ne.mp h)⟩
  | measure => exact ⟨_, fun s h => exec_measure_unloaded s (beq_eq_false_iff_ne.mp h)⟩
  | scale => exact ⟨_, exec_scale_unready⟩
  | round => exact ⟨_, exec_round_unready⟩
  | nop | clear | stat _ | crcInit | crcByte _ => exact ⟨.illegalOp, fun _ h => nomatch h⟩

/-- A relation of states that decides whether the command is performed, and that errors and the performed command keep,
holds after the command. -/
theorem exec_keeps_relation (i : Instr) (R : State → State → Prop)
    (performed : ∀ s s', R s s' → isPerformed i.mnemonic s' = isPerformed i.mnemonic s)
    (error : ∀ c info s s', R s s' → R (raiseError c info s) (raiseError c info s'))
    (command : ∀ s s', R s s' → R (performedState i s) (performedState i s'))
    (s s' t : State) (hs : R s s') (h : exec i s = .next t) : ∃ t', exec i s' = .next t' ∧ R t t' := by
  cases hp : isPerformed i.mnemonic s
  · obtain ⟨c, hc⟩ := exec_unperformed_cause i
    obtain rfl := Host.Outcome.next.inj ((hc s hp).symm.trans h)
    exact ⟨_, hc s' ((performed s s' hs).trans hp), error c _ s s' hs⟩
  · obtain rfl := Host.Outcome.next.inj ((exec_performed i s hp).symm.trans h)
    exact ⟨_, exec_performed i s' ((performed s s' hs).trans hp), command s s' hs⟩

/-! ## FLAGS (`10_state.md` R43) -/

/-- The states differ in FLAGS only. -/
def SameButFlags (s t : State) : Prop := ∃ f, t = { s with flags := f }

theorem sameButFlags_raiseError (c : ErrCause) (info : BitVec 16) (s t : State) (h : SameButFlags s t) :
    SameButFlags (raiseError c info s) (raiseError c info t) := by
  obtain ⟨f, rfl⟩ := h
  refine ⟨f, ?_⟩
  by_cases h0 : s.cause = 0
  · rw [raiseError_first c info s h0, raiseError_first c info { s with flags := f } h0]
  · rw [raiseError_later c info s h0, raiseError_later c info { s with flags := f } h0]

/-- No operation reads a flag. -/
theorem sameButFlags_performedState (i : Instr) (s t : State) (h : SameButFlags s t) :
    SameButFlags (performedState i s) (performedState i t) := by
  obtain ⟨f, rfl⟩ := h
  refine ⟨(performedState i { s with flags := f }).flags, ?_⟩
  cases i <;> rfl

theorem exec_sameButFlags (i : Instr) (s s' t : State) (hs : SameButFlags s s') (h : exec i s = .next t) :
    ∃ t', exec i s' = .next t' ∧ SameButFlags t t' := by
  refine exec_keeps_relation i SameButFlags ?_ sameButFlags_raiseError (sameButFlags_performedState i) s s' t hs h
  rintro s _ ⟨f, rfl⟩
  cases i <;> rfl

theorem performedState_busy_cal (i : Instr) (s : State) (hi : i.mnemonic ∉ [.stat, .decode, .measure, .clear]) :
    (performedState i s).flags.getLsbD 0 = s.flags.getLsbD 0 ∧
    (performedState i s).flags.getLsbD 1 = s.flags.getLsbD 1 := by
  cases i with
  | stat _ | decode | measure | clear => exact absurd (by simp [Instr.mnemonic]) hi
  | check => exact ⟨crcFlag_busy _ s.flags, crcFlag_cal _ s.flags⟩
  | nop | scale | round | crcInit | crcByte _ => exact ⟨rfl, rfl⟩

theorem performedState_crcOk (i : Instr) (s : State) (hi : i.mnemonic ∉ [.check, .measure, .clear]) :
    (performedState i s).flags.getLsbD 2 = s.flags.getLsbD 2 := by
  cases i with
  | check | measure | clear => exact absurd (by simp [Instr.mnemonic]) hi
  | stat status => exact statusFlags_crcOk status s.flags
  | decode => exact statusFlags_crcOk _ s.flags
  | nop | scale | round | crcInit | crcByte _ => rfl

/-- Settles O50: STAT, DECODE and MEASURE record a status byte, CHECK and MEASURE a check, and an error no flag. -/
theorem flagsHaveFewWritersAndNoReader : Obligations.FlagsHaveFewWritersAndNoReader := by
  intro i s f
  obtain ⟨t, ht⟩ := exec_next i s
  obtain ⟨_, hu, g, rfl⟩ := exec_sameButFlags i s { s with flags := f } t ⟨f, rfl⟩ ht
  refine ⟨t, _, ht, hu, rfl, ?_⟩
  rcases exec_cases i s t ht with ⟨-, rfl⟩ | ⟨-, c, -, rfl⟩
  · exact ⟨performedState_busy_cal i s, performedState_crcOk i s⟩
  · simp

/-! ## CRC_ACC (`10_state.md` R31) -/

theorem raiseError_set_crcAcc (c : ErrCause) (info : BitVec 16) (s : State) (a : BitVec 8) :
    raiseError c info { s with crcAcc := a } = { raiseError c info s with crcAcc := a } := by
  by_cases h0 : s.cause = 0
  · rw [raiseError_first c info s h0, raiseError_first c info { s with crcAcc := a } h0]
  · rw [raiseError_later c info s h0, raiseError_later c info { s with crcAcc := a } h0]

theorem performedState_crcAcc (i : Instr) (s : State) (hi : i.mnemonic ∉ [.crcInit, .crcByte, .clear]) :
    (performedState i s).crcAcc = s.crcAcc := by
  cases i with
  | crcInit | crcByte _ | clear => exact absurd (by simp [Instr.mnemonic]) hi
  | _ => rfl

theorem performedState_set_crcAcc (i : Instr) (s : State) (a : BitVec 8)
    (hi : i.mnemonic ∉ [.crcInit, .crcByte, .clear]) :
    performedState i { s with crcAcc := a } = { performedState i s with crcAcc := a } := by
  cases i with
  | crcInit | crcByte _ | clear => exact absurd (by simp [Instr.mnemonic]) hi
  | _ => rfl

/-- Settles O51: neither a performed command nor an error reads or writes CRC_ACC. -/
theorem crcAccumulatorIsSeparate : Obligations.CrcAccumulatorIsSeparate := by
  intro i s a hi
  obtain ⟨t, ht⟩ := exec_next i s
  obtain ⟨t', ht', rfl⟩ := exec_keeps_relation i (fun s t => t = { s with crcAcc := a })
    (by rintro s _ rfl; cases i <;> rfl)
    (by rintro c info s _ rfl; exact raiseError_set_crcAcc c info s a)
    (by rintro s _ rfl; exact performedState_set_crcAcc i s a hi) s _ t rfl ht
  refine ⟨t, ht, ?_, ht'⟩
  rcases exec_cases i s t ht with ⟨-, rfl⟩ | ⟨-, c, -, rfl⟩
  · exact performedState_crcAcc i s hi
  · exact raiseError_crcAcc c _ s

/-! ## Results are snapshots (`10_state.md` R46, `70_reset_and_hazards.md` R206) -/

/-- Settles O52: of the accesses only a word written to CMD performs a command. -/
theorem resultsAreSnapshots : Obligations.ResultsAreSnapshots := by
  intro s a rest hp ha
  rw [step_event s _ rest hp]
  cases a with
  | read addr n =>
    refine ⟨_, rfl, ?_⟩
    obtain ⟨e, d, he⟩ := readEffect_eq_record addr n { s with pending := rest }
    rw [memRead, he]
    rfl
  | write addr v =>
    obtain ⟨t, ht⟩ := memWrite_next addr v { s with pending := rest }
    refine ⟨t, ht, ?_⟩
    rcases memWrite_cases addr v _ t ht with ⟨-, rfl⟩ | ⟨r, hr, ⟨-, rfl⟩ | ⟨rfl, -⟩ | ⟨-, rfl⟩ | ⟨i, -, rfl⟩⟩
    · obtain ⟨e, d, he⟩ := raiseError_eq_record .badAccess (accessInfo v.width addr) { s with pending := rest }
      rw [he]
    · obtain ⟨e, d, he⟩ := raiseError_eq_record .readOnly (accessInfo v.width addr) { s with pending := rest }
      rw [he]
    · obtain ⟨rfl, w, rfl⟩ := write_of_admitted_cmd addr v hr
      exact absurd rfl (ha w)
    · rfl
    · rfl

end Sys2Proof.Machine
end

section
/-! Runs of the host-program lines LOADFRAME, CRCRUN and POLL (`30_encoding.md` R79). -/

namespace Sys2Proof.Machine

/-! ## Runs over placed events -/

/-- The state with the events the host has still to issue replaced. -/
def State.withPending (s : State) (events : List HostEvent) : State := { s with pending := events }

theorem withPending_self (s : State) (events : List HostEvent) (h : s.pending = events) : s.withPending events = s := by
  rw [← h]
  rfl

theorem step_withPending (s : State) (e : HostEvent) (rest : List HostEvent) :
    step (s.withPending (e :: rest)) = applyEvent e (s.withPending rest) := rfl

theorem loadProgram_idle (accesses : List Access) (s : State) (h : s.pending = []) :
    loadProgram accesses s = s.withPending (accesses.map HostEvent.access) := by
  rw [loadProgram, h, List.nil_append, State.withPending]

theorem runSteps_succ (n : Nat) (s t : State) (h : step s = .next t) : runSteps (n + 1) s = runSteps n t := by
  simp only [runSteps, h]

/-- Where each placed event acts by a function that leaves the events to come alone, the run is the fold of the
actions. -/
theorem runSteps_map {α : Type} (event : α → HostEvent) (act : State → α → State)
    (hevent : ∀ s x, applyEvent (event x) s = .next (act s x))
    (hpending : ∀ s x events, act (s.withPending events) x = (act s x).withPending events) (xs : List α) (s : State) :
    runSteps xs.length (s.withPending (xs.map event)) = .next ((xs.foldl act s).withPending []) := by
  induction xs generalizing s with
  | nil => rfl
  | cons x xs ih =>
    have hstep : step (s.withPending ((x :: xs).map event)) = .next ((act s x).withPending (xs.map event)) := by
      rw [List.map_cons, step_withPending, hevent, hpending]
    rw [List.length_cons, runSteps_succ _ _ _ hstep, ih, List.foldl_cons]

/-! ## LOADFRAME -/

/-- One write of LOADFRAME. -/
def loadByte (s : State) (p : Fin 7 × Nat) : State := writeFrame p.1 (BitVec.ofNat 8 p.2) s

theorem applyEvent_writeAccess_frame (s : State) (p : Fin 7 × Nat) :
    applyEvent (.access (writeAccess (.frame p.1) p.2)) s = .next (loadByte s p) := by
  have hv : (BitVec.ofNat 64 p.2).setWidth 8 = BitVec.ofNat 8 p.2 := BitVec.setWidth_ofNat_of_le (by decide) p.2
  have hd : Data.ofBits (Reg.frame p.1).width (BitVec.ofNat 64 p.2) = .b1 (BitVec.ofNat 8 p.2) := congrArg Data.b1 hv
  rw [writeAccess, hd]
  exact memWrite_frame p.1 _ s

theorem loadByte_withPending (s : State) (p : Fin 7 × Nat) (events : List HostEvent) :
    loadByte (s.withPending events) p = (loadByte s p).withPending events := rfl

/-- Frame writes change the frame and FRAME_VLD only. -/
theorem foldl_loadByte (ps : List (Fin 7 × Nat)) (s : State) :
    ps.foldl loadByte s = { s with
      frame := ps.foldl (fun f p => f.set p.1 (BitVec.ofNat 8 p.2)) s.frame
      frameVld := ps.foldl (fun v p => setBit v p.1 true) s.frameVld } := by
  induction ps generalizing s with
  | nil => rfl
  | cons p ps ih => exact ih (loadByte s p)

/-- The bytes of LOADFRAME with the frame bytes they go to, in the order of its writes. -/
def loadPairs (bytes : List Nat) : List (Fin 7 × Nat) := [0, 1, 2, 3, 4, 5, 6].zip bytes

/-- Loading all seven bytes leaves nothing of the frame before. -/
theorem toList_of_loadPairs (f : Vector (BitVec 8) 7) (bytes : List Nat) (hlen : bytes.length = 7) :
    ((loadPairs bytes).foldl (fun f p => f.set p.1 (BitVec.ofNat 8 p.2)) f).toList = bytes.map (BitVec.ofNat 8) := by
  match bytes, hlen with
  | [b0, b1, b2, b3, b4, b5, b6], _ => simp [loadPairs, frame_toList]

theorem getLsbD_of_loadPairs (v : BitVec 8) (bytes : List Nat) (hlen : bytes.length = 7) (j : Nat) (hj : j < 8) :
    ((loadPairs bytes).foldl (fun v p => setBit v p.1 true) v).getLsbD j = (v.getLsbD j || decide (j < 7)) := by
  have hbits : (j == 0 || (j == 1 || (j == 2 || (j == 3 || (j == 4 || (j == 5 || j == 6)))))) = decide (j < 7) := by
    revert j
    decide
  match bytes, hlen with
  | [b0, b1, b2, b3, b4, b5, b6], _ =>
    rw [← hbits]
    simp only [loadPairs, List.zip_cons_cons, List.zip_nil_right, List.foldl_cons, List.foldl_nil,
      getLsbD_setBit_true _ _ _ hj, Bool.or_assoc]
    rfl

theorem runSteps_loadFrame (s : State) (hp : s.pending = []) (bytes : List Nat) (hlen : bytes.length = 7) :
    runSteps 7 (loadProgram (lineAccesses (.loadFrame bytes)) s) = .next ((loadPairs bytes).foldl loadByte s) := by
  have hlength : (loadPairs bytes).length = 7 := by
    rw [loadPairs, List.length_zip, hlen]
    rfl
  have hevents : (lineAccesses (.loadFrame bytes)).map HostEvent.access =
      (loadPairs bytes).map fun p => .access (writeAccess (.frame p.1) p.2) := List.map_map
  have hrun := runSteps_map (fun p : Fin 7 × Nat => .access (writeAccess (.frame p.1) p.2)) loadByte
    applyEvent_writeAccess_frame loadByte_withPending (loadPairs bytes) s
  have hidle : ((loadPairs bytes).foldl loadByte s).pending = [] := by rw [foldl_loadByte, hp]
  rw [hlength, withPending_self _ _ hidle] at hrun
  rw [loadProgram_idle _ s hp, hevents, hrun]

theorem map_toNat_ofNat (bytes : List Nat) (h : bytes.all isByte = true) :
    (bytes.map (BitVec.ofNat 8)).map BitVec.toNat = bytes := by
  rw [List.map_map]
  conv_rhs => rw [← List.map_id bytes]
  refine List.map_congr_left fun b hb => ?_
  have hlt : b < 256 := of_decide_eq_true (List.all_eq_true.mp h b hb)
  exact Nat.mod_eq_of_lt hlt

theorem loadFrame_effect (s : State) (hp : s.pending = []) (bytes : List Nat)
    (hwf : Line.wf (.loadFrame bytes) = true) :
    ∃ t, runSteps 7 (loadProgram (lineAccesses (.loadFrame bytes)) s) = .next t ∧
      t = { s with frame := t.frame, frameVld := t.frameVld } ∧
      t.frame.toList.map BitVec.toNat = bytes ∧
      ∀ j < 8, t.frameVld.getLsbD j = (s.frameVld.getLsbD j || decide (j < 7)) := by
  obtain ⟨hlen, hbytes⟩ : bytes.length = 7 ∧ bytes.all isByte = true := by
    simpa only [Line.wf, Bool.and_eq_true, beq_iff_eq] using hwf
  refine ⟨_, runSteps_loadFrame s hp bytes hlen, ?_⟩
  rw [foldl_loadByte]
  refine ⟨rfl, ?_, fun j hj => getLsbD_of_loadPairs s.frameVld bytes hlen j hj⟩
  rw [toList_of_loadPairs s.frame bytes hlen, map_toNat_ofNat bytes hbytes]

/-! ## CRCRUN -/

theorem applyEvent_commandAccess (m : Mnemonic) (imm : Nat) (s : State)
    (h : m.takesImm = true ∨ BitVec.ofNat 8 imm = 0) :
    applyEvent (.access (commandAccess m imm)) s = exec (m.instr (BitVec.ofNat 8 imm)) s := by
  have hd : decode (encodeWord m (BitVec.ofNat 8 imm)) = .ok (m.instr (BitVec.ofNat 8 imm)) := by
    simp only [decode, encodeWord, opField_append, immField_append, mnemonicOf_op]
    rw [if_neg]
    rintro ⟨hno, hne⟩
    rcases h with hyes | hzero
    · exact absurd (hyes.symm.trans hno) (by decide)
    · exact hne hzero
  exact (memWrite_command _ s).trans (performCommand_ok _ _ s hd)

/-- One CRC_BYTE of CRCRUN. -/
def feedByte (s : State) (b : Nat) : State := { s with crcAcc := crc8Step s.crcAcc (BitVec.ofNat 8 b) }

theorem applyEvent_crcByte (s : State) (b : Nat) :
    applyEvent (.access (commandAccess .crcByte b)) s = .next (feedByte s b) :=
  applyEvent_commandAccess .crcByte b s (.inl rfl)

theorem feedByte_withPending (s : State) (b : Nat) (events : List HostEvent) :
    feedByte (s.withPending events) b = (feedByte s b).withPending events := rfl

/-- Fed bytes change CRC_ACC only. -/
theorem foldl_feedByte (bytes : List Nat) (s : State) :
    bytes.foldl feedByte s = { s with crcAcc := (bytes.map (BitVec.ofNat 8)).foldl crc8Step s.crcAcc } := by
  induction bytes generalizing s with
  | nil => rfl
  | cons b bytes ih => exact ih (feedByte s b)

theorem crcRun_effect (s : State) (hp : s.pending = []) (bytes : List Nat) :
    runSteps (bytes.length + 1) (loadProgram (lineAccesses (.crcRun bytes)) s) =
      .next { s with crcAcc := crc8 (bytes.map (BitVec.ofNat 8)) } := by
  have hinit : step (s.withPending ((lineAccesses (.crcRun bytes)).map .access)) =
      .next ({ s with crcAcc := 0xFF }.withPending (bytes.map fun b => .access (commandAccess .crcByte b))) := by
    rw [lineAccesses, List.map_cons, List.map_map, step_withPending, applyEvent_commandAccess _ _ _ (.inr rfl)]
    rfl
  have hfeed := runSteps_map (fun b => .access (commandAccess .crcByte b)) feedByte applyEvent_crcByte
    feedByte_withPending bytes { s with crcAcc := 0xFF }
  rw [loadProgram_idle _ s hp, runSteps_succ _ _ _ hinit, hfeed, foldl_feedByte]
  exact congrArg Host.Outcome.next (withPending_self _ _ hp)

/-! ## POLL -/

theorem poll_effect (s : State) (hp : s.pending = []) (status : Nat) :
    ∃ t d, runSteps 2 (loadProgram (lineAccesses (.poll status)) s) = .next t ∧
      t = { s with
        statusRaw := BitVec.ofNat 8 status, flags := t.flags, valid := t.valid, reads := s.reads ++ [.b1 d] } ∧
      d.getLsbD 0 = (BitVec.ofNat 8 status).getLsbD 7 := by
  have hstat : step (s.withPending ((lineAccesses (.poll status)).map .access)) =
      .next ((decodeStatus (BitVec.ofNat 8 status) s).withPending [.access (readAccess .flags)]) := by
    rw [lineAccesses, List.map_cons, step_withPending, applyEvent_commandAccess _ _ _ (.inl rfl)]
    rfl
  generalize ht : decodeStatus (BitVec.ofNat 8 status) s = t at hstat
  have hidle : t.pending = [] := by rw [← ht, decodeStatus_pending, hp]
  have hread : step (t.withPending [.access (readAccess .flags)]) = .next (recordRead (t.readReg .flags) t) := by
    rw [step_withPending, withPending_self t [] hidle]
    exact congrArg Host.Outcome.next (memRead_register .flags t)
  refine ⟨recordRead (t.readReg .flags) t, t.flags &&& 0x07, ?_, ?_, ?_⟩
  · rw [loadProgram_idle _ s hp, runSteps_succ _ _ _ hstat, runSteps_succ _ _ _ hread, runSteps]
  · subst ht
    rfl
  · rw [BitVec.getLsbD_and, ← ht, decodeStatus_flags, statusFlags_busy]
    exact Bool.and_true _

/-- Settles O54: the three lines, each run over its accesses. -/
theorem pseudoInstructionsDoWhatTheyName : Obligations.PseudoInstructionsDoWhatTheyName := by
  intro s hp
  exact ⟨loadFrame_effect s hp, fun bytes _ => crcRun_effect s hp bytes, fun status _ => poll_effect s hp status⟩

end Sys2Proof.Machine
end

section
/-! Refused accesses (`20_memory.md` R53 to R57): which accesses the register map refuses, and what each of them
records. -/

namespace Sys2Proof.Machine

/-! ## The register table and the register map -/

theorem mem_registers (r : Reg) : r ∈ registers := by
  cases r with
  | frame i => revert i; decide
  | _ => decide

/-- The offsets and widths of the spec's register table are those of the model's registers. -/
theorem isRegister_iff (addr : BitVec 8) (n : Width) :
    isRegister addr n = true ↔ ∃ r : Reg, addr = r.offset ∧ n = r.width := by
  rw [isRegister, registerRows_eq State.reset (regInv_reset [] [] 0), List.any_map, List.any_eq_true]
  simp only [Function.comp, readReg_width, Bool.and_eq_true, beq_iff_eq]
  constructor
  · rintro ⟨r, -, haddr, hn⟩
    exact ⟨r, haddr.symm, hn.symm⟩
  · rintro ⟨r, rfl, rfl⟩
    exact ⟨r, mem_registers r, rfl, rfl⟩

/-- No access is admitted where the register table has no row. -/
theorem admitted_eq_none_of_not_isRegister (addr : BitVec 8) (n : Width) (h : isRegister addr n = false) :
    admitted addr n = none := by
  refine Option.eq_none_iff_forall_ne_some.mpr fun r hr => ?_
  have hreg : isRegister addr n = true := (isRegister_iff addr n).mpr ⟨r, (admitted_eq_some_iff addr n r).mp hr⟩
  exact Bool.false_ne_true (h.symm.trans hreg)

/-- The host-writable offsets of the spec's table are those of the registers that a write reaches. -/
theorem isHostWritable_offset (r : Reg) : isHostWritable r.offset = r.writeTarget.isSome := by
  cases r with
  | frame i => revert i; decide
  | _ => rfl

/-! ## Refused reads -/

theorem memRead_noRegister (addr : BitVec 8) (n : Width) (s : State) (h : isRegister addr n = false) :
    memRead addr n s = recordRead (Data.ofBits n 0) (raiseError .badAccess (accessInfo n addr) s) := by
  simp only [memRead, readValue, readEffect, admitted_eq_none_of_not_isRegister addr n h]

/-- The record of an error says nothing of the host's record of reads. -/
theorem errorRecorded_set_reads {code : BitVec 4} {info : BitVec 16} {s t : State} (h : ErrorRecorded code info s t)
    (reads : List Data) : ErrorRecorded code info { s with reads := reads } { t with reads := reads } := by
  obtain ⟨hframe, hfirst, hlater⟩ := h
  exact ⟨congrArg (fun u : State => { u with reads := reads }) hframe, hfirst, hlater⟩

/-- Settles O33: the read is not admitted, so 0 is put in the host's record after the error is recorded. -/
theorem otherReadsAreRefused : Obligations.OtherReadsAreRefused := by
  intro s addr n rest haddr hp
  refine ⟨recordRead (Data.ofBits n 0) (raiseError .badAccess (accessInfo n addr) { s with pending := rest }),
    ?_, ?_, ?_⟩
  · rw [step_event s _ rest hp]
    exact congrArg Host.Outcome.next (memRead_noRegister addr n _ haddr)
  · rw [recordRead_reads, raiseError_reads]
  · exact errorRecorded_set_reads (raiseError_recorded .badAccess (accessInfo n addr) { s with pending := rest }) _

/-! ## Refused writes -/

theorem memWrite_noRegister (addr : BitVec 8) (v : Data) (s : State) (h : isRegister addr v.width = false) :
    memWrite addr v s = .next (raiseError .badAccess (accessInfo v.width addr) s) := by
  simp only [memWrite, admitted_eq_none_of_not_isRegister addr v.width h]

theorem memWrite_readOnly (addr : BitVec 8) (v : Data) (s : State) (hreg : isRegister addr v.width = true)
    (hro : isHostWritable addr = false) :
    memWrite addr v s = .next (raiseError .readOnly (accessInfo v.width addr) s) := by
  obtain ⟨r, rfl, hwidth⟩ := (isRegister_iff addr v.width).mp hreg
  have hadmitted : admitted r.offset v.width = some r := (admitted_eq_some_iff _ _ r).mpr ⟨rfl, hwidth⟩
  have htarget : r.writeTarget = none := by
    rwa [isHostWritable_offset, Option.isSome_eq_false_iff, Option.isNone_iff_eq_none] at hro
  simp only [memWrite, hadmitted, htarget]

/-- Settles O34: a write at no register is not admitted, and a read-only register is the target of no write. -/
theorem forbiddenWritesAreRefused : Obligations.ForbiddenWritesAreRefused := by
  intro s addr v rest hp
  rw [step_event s _ rest hp]
  exact ⟨fun hno => ⟨_, memWrite_noRegister addr v _ hno, raiseError_recorded .badAccess _ _⟩,
    fun hreg hro => ⟨_, memWrite_readOnly addr v _ hreg hro, raiseError_recorded .readOnly _ _⟩⟩

end Sys2Proof.Machine
end

section
/-! Decoding and encoding of command words (`30_encoding.md`): what the decoder answers for a word, said over its two
fields, and the decoder against the encoder, the opcode map and the counts of the spec. -/

namespace Sys2Proof.Machine

/-! ## The opcode map in both directions (R74) -/

theorem mnemonicOf_eq_some_iff (op : Byte) (m : Mnemonic) : mnemonicOf op = some m ↔ m.op = op := by
  constructor
  · exact op_of_mnemonicOf op m
  · rintro rfl
    exact mnemonicOf_op m

/-- No two operations share an `op`. -/
theorem op_injective : Function.Injective Mnemonic.op := by
  intro m m' h
  have hm : mnemonicOf m.op = some m' := (mnemonicOf_eq_some_iff _ m').mpr h.symm
  exact Option.some.inj ((mnemonicOf_op m).symm.trans hm)

/-- The operations in the order of the opcode map. -/
def mnemonics : List Mnemonic :=
  [.nop, .clear, .stat, .decode, .scale, .round, .crcInit, .crcByte, .check, .measure]

theorem mem_mnemonics (m : Mnemonic) : m ∈ mnemonics := by cases m <;> decide

/-- The assigned values of `op` are those of the operations. -/
theorem mem_assignedOps_iff (n : Nat) : n ∈ assignedOps ↔ ∃ m : Mnemonic, m.op.toNat = n := by
  have hops : assignedOps = mnemonics.map fun m => m.op.toNat := rfl
  rw [hops, List.mem_map]
  exact exists_congr fun m => and_iff_right (mem_mnemonics m)

theorem op_mem_immOps_iff (m : Mnemonic) : m.op.toNat ∈ immOps ↔ m.takesImm = true := by cases m <;> decide

/-! ## Decoding over the fields of the word (R71, R72) -/

theorem decode_illegal (w : Word16) (h : mnemonicOf (opField w) = none) : decode w = .error .illegalOp := by
  rw [decode, h]

theorem decode_reserved (w : Word16) (m : Mnemonic) (hop : m.op = opField w) (hm : m.takesImm = false)
    (himm : immField w ≠ 0) : decode w = .error .reservedImm := by
  rw [decode, (mnemonicOf_eq_some_iff _ m).mpr hop]
  exact if_pos ⟨hm, himm⟩

theorem decode_performed (w : Word16) (m : Mnemonic) (hop : m.op = opField w)
    (himm : m.takesImm = true ∨ immField w = 0) : decode w = .ok (m.instr (immField w)) := by
  rw [decode, (mnemonicOf_eq_some_iff _ m).mpr hop]
  refine if_neg fun ⟨hm, hne⟩ => ?_
  rcases himm with htakes | hzero
  · exact Bool.false_ne_true (hm.symm.trans htakes)
  · exact hne hzero

/-! ## Encoding (R78) -/

@[simp] theorem opField_encode (i : Instr) : opField (encode i) = i.mnemonic.op := opField_append _ _

@[simp] theorem immField_encode (i : Instr) : immField (encode i) = i.imm := immField_append _ _

/-- A command has an immediate of 0 or an operation that takes one. -/
theorem takesImm_or_imm_eq_zero (i : Instr) : i.mnemonic.takesImm = true ∨ i.imm = 0 := by
  cases h : i.mnemonic.takesImm
  · exact .inr (imm_of_no_imm i h)
  · exact .inl rfl

theorem decode_encode (i : Instr) : decode (encode i) = .ok i := by
  have himm : i.mnemonic.takesImm = true ∨ immField (encode i) = 0 := by
    rw [immField_encode]
    exact takesImm_or_imm_eq_zero i
  rw [decode_performed _ i.mnemonic (opField_encode i).symm himm, immField_encode, instr_mnemonic_imm]

/-- Settles O1: a decoded word is the encoding of its command, and an encoded command decodes to itself. -/
theorem decodeIsInverseOfEncode : Obligations.DecodeIsInverseOfEncode := by
  intro w i
  constructor
  · exact encode_of_decode w i
  · rintro rfl
    exact decode_encode i

/-- Settles O5: ten words are the encodings of the ten operations; two have an unassigned `op`, and two an immediate on
an operation that takes none. -/
theorem writtenOutWordsDecode : Obligations.WrittenOutWordsDecode :=
  ⟨decode_encode .nop, decode_encode .clear, decode_encode (.stat 0x98), decode_encode .decode, decode_encode .scale,
    decode_encode .round, decode_encode .crcInit, decode_encode (.crcByte 0x1C), decode_encode .check,
    decode_encode .measure, decode_illegal _ rfl, decode_illegal _ rfl,
    decode_reserved _ .nop rfl rfl (by decide), decode_reserved _ .scale rfl rfl (by decide)⟩

/-! ## Command words refused and performed (R72, R75, R76) -/

theorem mnemonicOf_unassigned (w : Word16) (h : w.toNat % 256 ∉ assignedOps) : mnemonicOf (opField w) = none := by
  refine Option.eq_none_iff_forall_ne_some.mpr fun m hm => h ?_
  rw [← opField_toNat, mem_assignedOps_iff]
  exact ⟨m, congrArg BitVec.toNat (op_of_mnemonicOf _ m hm)⟩

theorem exists_op_of_assigned (w : Word16) (h : w.toNat % 256 ∈ assignedOps) : ∃ m : Mnemonic, m.op = opField w := by
  rw [← opField_toNat, mem_assignedOps_iff] at h
  obtain ⟨m, hm⟩ := h
  exact ⟨m, BitVec.eq_of_toNat_eq hm⟩

theorem immField_eq_zero_iff (w : Word16) : immField w = 0 ↔ w.toNat / 256 = 0 := by
  rw [← immField_toNat, BitVec.toNat_eq]
  rfl

theorem performCommand_records (w : Word16) (e : DecodeError) (s : State) (h : decode w = .error e) :
    ∃ t, performCommand w s = .next t ∧ ErrorRecorded (causeCode (decodeCause e)) w s t :=
  ⟨_, performCommand_error w e s h, raiseError_recorded (decodeCause e) w s⟩

/-- Settles O2, by the three answers of the decoder. -/
theorem commandWordsAreDecodedInOrder : Obligations.CommandWordsAreDecodedInOrder := by
  intro w s
  refine ⟨fun hop => ?_, fun hop hno himm => ?_, fun hop himm => ?_⟩
  · exact performCommand_records w .illegalOp s (decode_illegal w (mnemonicOf_unassigned w hop))
  · obtain ⟨m, hm⟩ := exists_op_of_assigned w hop
    rw [← opField_toNat, ← hm, op_mem_immOps_iff, Bool.not_eq_true] at hno
    rw [ne_eq, ← immField_eq_zero_iff] at himm
    exact performCommand_records w .reservedImm s (decode_reserved w m hm hno himm)
  · obtain ⟨m, hm⟩ := exists_op_of_assigned w hop
    rw [← immField_eq_zero_iff, ← opField_toNat, ← hm, op_mem_immOps_iff] at himm
    refine ⟨m.instr (immField w), ?_, ?_, performCommand_ok w _ s (decode_performed w m hm himm)⟩
    · rw [mnemonic_instr, hm, opField_toNat]
    · rw [instr_imm m _ himm, immField_toNat]

/-! ## The match and mask columns (R74) -/

/-- The bits of `imm` that the `mask` column of an operation keeps. -/
def immMask (m : Mnemonic) : Byte := if m.takesImm then 0x00 else 0xFF

theorem rowMask_fields (m : Mnemonic) : rowMask m = immMask m ++ (0xFF : Byte) := by cases m <;> rfl

theorem rowMatch_fields (m : Mnemonic) : rowMatch m = (0x00 : Byte) ++ m.op := by cases m <;> rfl

theorem imm_append_op_inj (imm imm' op op' : Byte) : imm ++ op = imm' ++ op' ↔ imm = imm' ∧ op = op' := by
  constructor
  · intro h
    have himm := congrArg immField h
    have hop := congrArg opField h
    rw [immField_append, immField_append] at himm
    rw [opField_append, opField_append] at hop
    exact ⟨himm, hop⟩
  · rintro ⟨rfl, rfl⟩
    rfl

theorem and_immMask_eq_zero_iff (m : Mnemonic) (imm : Byte) :
    imm &&& immMask m = 0x00 ↔ m.takesImm = true ∨ imm = 0 := by
  have hkeep : imm &&& 0xFF = imm := BitVec.and_allOnes
  rw [immMask]
  cases m.takesImm with
  | true => simp
  | false =>
    rw [if_neg Bool.false_ne_true, hkeep]
    simp

/-- A row of the opcode map is selected by its `op`, and by an `imm` of 0 where it takes none. -/
theorem selects_row_iff (w : Word16) (m : Mnemonic) :
    w &&& rowMask m = rowMatch m ↔ m.op = opField w ∧ (m.takesImm = true ∨ immField w = 0) := by
  have hkeep : opField w &&& 0xFF = opField w := BitVec.and_allOnes
  have hfields : w &&& rowMask m = (immField w &&& immMask m) ++ opField w := by
    conv_lhs => rw [← imm_append_op w]
    rw [rowMask_fields, BitVec.and_append, hkeep]
  rw [hfields, rowMatch_fields, imm_append_op_inj, and_immMask_eq_zero_iff, and_comm, eq_comm]

theorem decodes_to_iff (w : Word16) (m : Mnemonic) :
    (∃ i, decode w = .ok i ∧ i.mnemonic = m) ↔ m.op = opField w ∧ (m.takesImm = true ∨ immField w = 0) := by
  constructor
  · rintro ⟨i, hi, rfl⟩
    rw [← encode_of_decode w i hi, opField_encode, immField_encode]
    exact ⟨rfl, takesImm_or_imm_eq_zero i⟩
  · rintro ⟨hop, himm⟩
    exact ⟨_, decode_performed w m hop himm, mnemonic_instr m _⟩

/-- Settles O3: decoder and columns both read the `op` of the row and its `imm`, and no two rows share an `op`. -/
theorem opcodeRowsSelectOperations : Obligations.OpcodeRowsSelectOperations := by
  intro w m
  refine ⟨(decodes_to_iff w m).trans (selects_row_iff w m).symm, fun m' h h' => ?_⟩
  obtain ⟨hop, -⟩ := (selects_row_iff w m).mp h
  obtain ⟨hop', -⟩ := (selects_row_iff w m').mp h'
  exact op_injective (hop.trans hop'.symm)

/-! ## The counts of command words (R77) -/

/-- Does the test tell no two performed commands apart? -/
def IgnoresCommand (p : Except DecodeError Instr → Bool) : Prop := ∀ i j, p (.ok i) = p (.ok j)

/-- Whether and why a word is refused depends on its `op` and on whether its `imm` is 0, not on the value of `imm`. -/
theorem apply_decode_congr (p : Except DecodeError Instr → Bool) (hp : IgnoresCommand p) (w w' : Word16)
    (hop : opField w = opField w') (himm : immField w = 0 ↔ immField w' = 0) : p (decode w) = p (decode w') := by
  cases hm : mnemonicOf (opField w) with
  | none => rw [decode_illegal w hm, decode_illegal w' (hop ▸ hm)]
  | some m =>
    have hw : m.op = opField w := op_of_mnemonicOf _ m hm
    have hw' : m.op = opField w' := hw.trans hop
    by_cases h : m.takesImm = true ∨ immField w = 0
    · rw [decode_performed w m hw h, decode_performed w' m hw' (h.imp_right himm.mp)]
      exact hp _ _
    · obtain ⟨htakes, hne⟩ := not_or.mp h
      rw [Bool.not_eq_true] at htakes
      rw [decode_reserved w m hw htakes hne, decode_reserved w' m hw' htakes (himm.not.mp hne)]

/-- What the decoder answers for the 256 words with the immediate `imm`, in the order of `op`. -/
def decodedWords (imm : Nat) : List (Except DecodeError Instr) :=
  (List.range 256).map fun op => decode (BitVec.ofNat 16 (imm * 256 + op))

theorem opField_ofNat (imm op : Nat) :
    opField (BitVec.ofNat 16 (imm * 256 + op)) = BitVec.ofNat 8 op := by
  refine BitVec.eq_of_toNat_eq ?_
  rw [opField_toNat, BitVec.toNat_ofNat, BitVec.toNat_ofNat]
  omega

theorem immField_ofNat_eq_zero_iff (imm op : Nat) (himm : imm < 256) (hop : op < 256) :
    immField (BitVec.ofNat 16 (imm * 256 + op)) = 0 ↔ imm = 0 := by
  rw [immField_eq_zero_iff, BitVec.toNat_ofNat]
  omega

/-- The words of every immediate but 0 are counted as those of the immediate 1. -/
theorem countP_decodedWords (p : Except DecodeError Instr → Bool) (hp : IgnoresCommand p) (imm : Nat)
    (hpos : 0 < imm) (hlt : imm < 256) : (decodedWords imm).countP p = (decodedWords 1).countP p := by
  rw [decodedWords, decodedWords, List.countP_map, List.countP_map]
  refine List.countP_congr fun op hmem => ?_
  have hop : op < 256 := List.mem_range.mp hmem
  have hzero : immField (BitVec.ofNat 16 (imm * 256 + op)) = 0 ↔ immField (BitVec.ofNat 16 (1 * 256 + op)) = 0 := by
    rw [immField_ofNat_eq_zero_iff imm op hlt hop, immField_ofNat_eq_zero_iff 1 op (by decide) hop]
    omega
  have hdecode := apply_decode_congr p hp _ _ ((opField_ofNat imm op).trans (opField_ofNat 1 op).symm) hzero
  rw [Function.comp_apply, Function.comp_apply, hdecode]

/-- The count over all words: the 256 of immediate 0, and 255 times the 256 of immediate 1. -/
theorem sum_countP_decodedWords (p : Except DecodeError Instr → Bool) (hp : IgnoresCommand p) :
    ((List.range 256).map fun imm => (decodedWords imm).countP p).sum =
      (decodedWords 0).countP p + 255 * (decodedWords 1).countP p := by
  have hconst : (List.range 255).map (fun k => (decodedWords (k + 1)).countP p) =
      (List.range 255).map fun _ => (decodedWords 1).countP p := by
    refine List.map_congr_left fun k hk => ?_
    have hlt : k < 255 := List.mem_range.mp hk
    exact countP_decodedWords p hp (k + 1) (by omega) (by omega)
  rw [List.range_succ_eq_map, List.map_cons, List.map_map, List.sum_cons]
  refine congrArg _ ((congrArg List.sum hconst).trans ?_)
  rw [List.map_const', List.length_range, List.sum_replicate, smul_eq_mul]

/-- Settles O4: of the words of immediate 0, 10 are performed and 246 illegal; of those of any other, 2 are performed,
8 reserved and 246 illegal. -/
theorem commandWordCounts : Obligations.CommandWordCounts := by
  refine ⟨(sum_countP_decodedWords _ fun _ _ => rfl).trans ?_, (sum_countP_decodedWords _ fun _ _ => rfl).trans ?_,
    (sum_countP_decodedWords _ fun _ _ => rfl).trans ?_⟩
  · decide +kernel
  · decide +kernel
  · decide +kernel

end Sys2Proof.Machine
end

section
/-! The frame decoder (`40_decode.md`): the raw fields as the concatenations of the spec and bit by bit, the frame that
holds given raw fields, and what STAT and DECODE write. -/

namespace Sys2Proof.Machine

/-! ## The raw fields (R105 to R108) -/

/-- R105, in the spec's own form. -/
theorem frameRh_eq_append (f : Vector (BitVec 8) 7) : frameRh f = f[1] ++ f[2] ++ f[3].extractLsb' 4 4 := by
  have h3 := f[3].isLt
  have hlow : (f[3].extractLsb' 4 4).toNat = f[3].toNat / 2 ^ 4 := by
    rw [BitVec.extractLsb'_toNat, Nat.shiftRight_eq_div_pow]
    omega
  apply BitVec.eq_of_toNat_eq
  rw [frameRh_toNat, BitVec.toNat_append, BitVec.toNat_append, hlow, or_shiftLeft_eq_add _ _ 8 f[2].isLt,
    or_shiftLeft_eq_add _ _ 4 (by omega)]
  omega

/-- R106, in the spec's own form. -/
theorem frameT_eq_append (f : Vector (BitVec 8) 7) : frameT f = f[3].extractLsb' 0 4 ++ f[4] ++ f[5] := by
  have hhigh : (f[3].extractLsb' 0 4).toNat = f[3].toNat % 2 ^ 4 := BitVec.extractLsb'_toNat 0 4 f[3]
  apply BitVec.eq_of_toNat_eq
  rw [frameT_toNat, BitVec.toNat_append, BitVec.toNat_append, hhigh, or_shiftLeft_eq_add _ _ 8 f[4].isLt,
    or_shiftLeft_eq_add _ _ 8 f[5].isLt]
  omega

/-- R103, R108: the 40 bits `rawRH ++ rawT` are frame bytes 1 to 5. -/
theorem rawFields_eq_append (f : Vector (BitVec 8) 7) :
    frameRh f ++ frameT f = f[1] ++ f[2] ++ f[3] ++ f[4] ++ f[5] := by
  apply BitVec.eq_of_toNat_eq
  simp only [BitVec.toNat_append, frameRh_toNat]
  rw [or_shiftLeft_eq_add _ _ 20 (frameT f).isLt, or_shiftLeft_eq_add _ _ 8 f[2].isLt,
    or_shiftLeft_eq_add _ _ 8 f[3].isLt, or_shiftLeft_eq_add _ _ 8 f[4].isLt, or_shiftLeft_eq_add _ _ 8 f[5].isLt,
    frameT_toNat]
  omega

/-- Bit `k` of `rawRH ++ rawT` is bit `k % 8` of frame byte `5 - k / 8`. -/
theorem getLsbD_rawFields (f : Vector (BitVec 8) 7) (k : Nat) (hk : k < 40) :
    (frameRh f ++ frameT f).getLsbD k = f[5 - k / 8].getLsbD (k % 8) := by
  rw [rawFields_eq_append]
  simp only [BitVec.getLsbD_append]
  split_ifs
  · simp only [show k / 8 = 0 by omega, show k % 8 = k by omega]
  · simp only [show k / 8 = 1 by omega, show k % 8 = k - 8 by omega]
  · simp only [show k / 8 = 2 by omega, show k % 8 = k - 8 - 8 by omega]
  · simp only [show k / 8 = 3 by omega, show k % 8 = k - 8 - 8 - 8 by omega]
  · simp only [show k / 8 = 4 by omega, show k % 8 = k - 8 - 8 - 8 - 8 by omega]

/-- Inverting bit `j` of frame byte `i` inverts that bit of that byte and no other. -/
theorem getLsbD_invert (f : Vector (BitVec 8) 7) (i : Fin 7) (j : Fin 8) (m l : Nat) (hm : m < 7) (hl : l < 8) :
    ((f.set i (f[i] ^^^ BitVec.twoPow 8 j))[m] ^^^ f[m]).getLsbD l = decide (i.val = m ∧ l = j.val) := by
  rw [Vector.getElem_set]
  split
  · next him =>
    subst him
    simp [hl]
  · next him =>
    rw [BitVec.xor_self, BitVec.getLsbD_zero, decide_eq_false fun h => him h.left]

/-- Settles O14: bit `k` of the raw fields is bit `k % 8` of frame byte `5 - k / 8`, so the inversion changes it exactly
when `i` and `j` are these. -/
theorem frameBitsBelongToOneField : Obligations.FrameBitsBelongToOneField := by
  intro f i j f'
  refine BitVec.eq_of_getLsbD_eq fun k hk => ?_
  have hdiff : ((frameRh f' ++ frameT f') ^^^ (frameRh f ++ frameT f)).getLsbD k =
      decide (i.val = 5 - k / 8 ∧ k % 8 = j.val) := by
    rw [BitVec.getLsbD_xor, getLsbD_rawFields f' k hk, getLsbD_rawFields f k hk, ← BitVec.getLsbD_xor]
    exact getLsbD_invert f i j (5 - k / 8) (k % 8) (by omega) (by omega)
  rw [hdiff]
  split
  · rw [BitVec.getLsbD_twoPow, ← Bool.decide_and, decide_eq_decide]
    omega
  · rw [BitVec.getLsbD_zero, decide_eq_false_iff_not]
    omega

/-- A frame whose raw fields are `rh` and `t`. -/
def frameOfRaw (rh t : Nat) : Vector (BitVec 8) 7 :=
  #v[0, BitVec.ofNat 8 (rh / 2 ^ 12), BitVec.ofNat 8 (rh / 2 ^ 4), BitVec.ofNat 8 (rh % 2 ^ 4 * 2 ^ 4 + t / 2 ^ 16),
    BitVec.ofNat 8 (t / 2 ^ 8), BitVec.ofNat 8 t, 0]

theorem frameRh_frameOfRaw (rh t : Nat) (hrh : rh < 2 ^ 20) (ht : t < 2 ^ 20) :
    (frameRh (frameOfRaw rh t)).toNat = rh := by
  rw [frameRh_toNat]
  simp only [frameOfRaw, Vector.getElem_mk, List.getElem_toArray, List.getElem_cons_succ, List.getElem_cons_zero,
    BitVec.toNat_ofNat]
  omega

theorem frameT_frameOfRaw (rh t : Nat) (ht : t < 2 ^ 20) : (frameT (frameOfRaw rh t)).toNat = t := by
  rw [frameT_toNat]
  simp only [frameOfRaw, Vector.getElem_mk, List.getElem_toArray, List.getElem_cons_succ, List.getElem_cons_zero,
    BitVec.toNat_ofNat]
  omega

/-- Settles O13: the fields have 20 bits, and `frameOfRaw` holds any two values of 20 bits. -/
theorem rawFieldsTakeEveryValue : Obligations.RawFieldsTakeEveryValue := by
  intro rh t
  constructor
  · rintro ⟨f, rfl, rfl⟩
    exact ⟨(frameRh f).isLt, (frameT f).isLt⟩
  · rintro ⟨hrh, ht⟩
    exact ⟨frameOfRaw rh t, frameRh_frameOfRaw rh t hrh ht, frameT_frameOfRaw rh t ht⟩

/-! ## STAT and DECODE (R100, R104, R109) -/

/-- The flags a status decode leaves unchanged (`10_state.md` R33). -/
theorem statusFlags_unchanged (status flags : BitVec 8) (j : Nat) (hj : 2 ≤ j) :
    (statusFlags status flags).getLsbD j = flags.getLsbD j := by
  rw [getLsbD_statusFlags, if_neg (by omega), if_neg (by omega)]

/-- Settles O11: the word is that of STAT, and STAT records a status byte. -/
theorem statDecodesStatusByte : Obligations.StatDecodesStatusByte := by
  intro imm s
  have hword : decode (imm ++ 0x10#8) = .ok (.stat imm) := decode_encode (.stat imm)
  refine ⟨performCommand_ok _ _ s hword, performedState (.stat imm) s, rfl, rfl, statusFlags_busy imm s.flags,
    statusFlags_cal imm s.flags, statusFlags_unchanged imm s.flags, fun j hj => ?_⟩
  rw [performedState_valid (.stat imm) s (by simp) j hj]
  simp [Instr.mnemonic, validBitsSet, beq_eq_decide]

/-- R76: an operation that takes no immediate is refused with one that is not 0. -/
theorem reservedImmRefused_op (m : Mnemonic) (hm : m.takesImm = false) : ReservedImmRefused m.op := by
  intro imm s himm
  have hreserved : decode (imm ++ m.op) = .error .reservedImm :=
    decode_reserved _ m (opField_append imm m.op).symm hm (by rwa [immField_append])
  exact performCommand_records _ .reservedImm s hreserved

/-- Settles O12: DECODE loaded writes the status byte and both fields, and unloaded it records an error. -/
theorem decodeUnpacksFrame : Obligations.DecodeUnpacksFrame := by
  refine ⟨reservedImmRefused_op .decode rfl, fun s h => ?_, fun s h => ?_⟩
  · exact ⟨_, exec_decode_unloaded s h, raiseError_recorded .frameNotLoaded _ s⟩
  · refine ⟨performedState .decode s, exec_decode_loaded s h, ?_, statusFlags_busy s.frame[0] s.flags,
      statusFlags_cal s.frame[0] s.flags, statusFlags_unchanged s.frame[0] s.flags, fun j hj => ?_⟩
    · rw [← frameRh_eq_append, ← frameT_eq_append, BitVec.ofNat_toNat, BitVec.ofNat_toNat]
      rfl
    · rw [performedState_valid .decode s (by decide) j hj]
      simp [Instr.mnemonic, validBitsSet, beq_eq_decide, Bool.or_assoc]

/-- Settles O15: what DECODE writes is taken from the frame and from FLAGS and VALID. -/
theorem fieldPositionsIgnoreProfile : Obligations.FieldPositionsIgnoreProfile := fun s c h =>
  ⟨_, exec_decode_loaded s h, exec_decode_loaded { s with config := c } h⟩

end Sys2Proof.Machine
end

section
/-! Scaling and rounding (`41_scale.md`): the rational a binary64 encoding stands for, the exact values SCALE encodes,
and the rounding ROUND does of them. -/

namespace Sys2Proof.Machine

/-! ## The binary64 encoding of a dyadic rational (R121, R122; log entry 11) -/

theorem f64OfDyadic_zero (k : Nat) : f64OfDyadic 0 k = 0 := if_pos rfl

/-- The encoding of a number that is not 0 is the three fields of R122. -/
theorem f64OfDyadic_fields (n : Int) (k : Nat) (hn : n ≠ 0) :
    (f64OfDyadic n k).getLsbD 63 = decide (n < 0) ∧
    (f64OfDyadic n k).extractLsb' 52 11 = BitVec.ofNat 11 (n.natAbs.log2 + 1023 - k) ∧
    (f64OfDyadic n k).extractLsb' 0 52 = BitVec.ofNat 52 (n.natAbs * 2 ^ (52 - n.natAbs.log2) - 2 ^ 52) := by
  have happend : f64OfDyadic n k = BitVec.ofBool (decide (n < 0)) ++ BitVec.ofNat 11 (n.natAbs.log2 + 1023 - k) ++
      BitVec.ofNat 52 (n.natAbs * 2 ^ (52 - n.natAbs.log2) - 2 ^ 52) := if_neg hn
  rw [happend]
  refine ⟨?_, ?_, BitVec.extractLsb'_append_eq_right⟩
  · rw [BitVec.getLsbD_append, if_neg (by decide), BitVec.getLsbD_append, if_neg (by decide), BitVec.getLsbD_ofBool]
    exact Bool.true_and _
  · exact (BitVec.extractLsb'_append_eq_of_le (le_refl 52)).trans BitVec.extractLsb'_append_eq_right

/-- Shifted to have its leading bit at weight `2^52`, a magnitude has 53 bits. -/
theorem shifted_magnitude_range (m : Nat) (hm : m ≠ 0) (hlt : m < 2 ^ 53) :
    2 ^ 52 ≤ m * 2 ^ (52 - m.log2) ∧ m * 2 ^ (52 - m.log2) < 2 ^ 53 := by
  have hlog : m.log2 < 53 := (Nat.log2_lt hm).mpr hlt
  constructor
  · calc 2 ^ 52 = 2 ^ m.log2 * 2 ^ (52 - m.log2) := by rw [← pow_add, Nat.add_sub_cancel' (by omega)]
      _ ≤ m * 2 ^ (52 - m.log2) := Nat.mul_le_mul_right _ (Nat.log2_self_le hm)
  · calc m * 2 ^ (52 - m.log2) < 2 ^ (m.log2 + 1) * 2 ^ (52 - m.log2) :=
          Nat.mul_lt_mul_of_pos_right Nat.lt_log2_self (by positivity)
      _ = 2 ^ 53 := by rw [← pow_add, show m.log2 + 1 + (52 - m.log2) = 53 by omega]

section
variable (n : Int) (k : Nat) (hn : n ≠ 0) (hlt : n.natAbs < 2 ^ 53) (hk : k ≤ 1022)
include hn hlt

/-- The fraction field with the implicit leading one is the shifted magnitude. -/
theorem fraction_f64OfDyadic :
    2 ^ 52 + ((f64OfDyadic n k).extractLsb' 0 52).toNat = n.natAbs * 2 ^ (52 - n.natAbs.log2) := by
  obtain ⟨-, -, hfraction⟩ := f64OfDyadic_fields n k hn
  obtain ⟨hge, hlt⟩ := shifted_magnitude_range n.natAbs (Int.natAbs_ne_zero.mpr hn) hlt
  rw [hfraction, BitVec.toNat_ofNat]
  omega

include hk

/-- The exponent field is the biased exponent of the leading bit, and that of a normal number. -/
theorem f64Exponent_f64OfDyadic :
    f64Exponent (f64OfDyadic n k) = n.natAbs.log2 + 1023 - k ∧
    0 < f64Exponent (f64OfDyadic n k) ∧ f64Exponent (f64OfDyadic n k) < 2047 := by
  have hlog : n.natAbs.log2 < 53 := (Nat.log2_lt (Int.natAbs_ne_zero.mpr hn)).mpr hlt
  obtain ⟨-, hexponent, -⟩ := f64OfDyadic_fields n k hn
  rw [f64Exponent, hexponent, BitVec.toNat_ofNat]
  omega

end

theorem f64Value_zero : f64Value 0 = 0 := by simp [f64Value, f64Exponent]

theorem f64Value_normal (v : BitVec 64) (h : f64Exponent v ≠ 0) :
    f64Value v = (if v.getLsbD 63 then -1 else 1) * (2 ^ 52 + ((v.extractLsb' 0 52).toNat : ℚ)) *
      2 ^ ((f64Exponent v : ℤ) - 1075) := if_neg h

/-- The encoding is exact (R121). -/
theorem f64Value_f64OfDyadic (n : Int) (k : Nat) (hlt : n.natAbs < 2 ^ 53) (hk : k ≤ 1022) :
    f64Value (f64OfDyadic n k) = n / 2 ^ k := by
  by_cases hn : n = 0
  · rw [hn, f64OfDyadic_zero, f64Value_zero, Int.cast_zero, zero_div]
  obtain ⟨hsign, -, -⟩ := f64OfDyadic_fields n k hn
  obtain ⟨hexponent, hpos, -⟩ := f64Exponent_f64OfDyadic n k hn hlt hk
  have hlog : n.natAbs.log2 < 53 := (Nat.log2_lt (Int.natAbs_ne_zero.mpr hn)).mpr hlt
  have hfraction : (2 ^ 52 + (((f64OfDyadic n k).extractLsb' 0 52).toNat : ℚ)) =
      n.natAbs * 2 ^ (52 - n.natAbs.log2) := mod_cast fraction_f64OfDyadic n k hn hlt
  have hweight : (2 : ℚ) ^ (52 - n.natAbs.log2) * 2 ^ ((f64Exponent (f64OfDyadic n k) : ℤ) - 1075) =
      (2 ^ k)⁻¹ := by
    rw [hexponent, ← zpow_natCast, ← zpow_natCast, ← zpow_add₀ two_ne_zero, ← zpow_neg]
    congr 1
    omega
  have hmagnitude : (if (f64OfDyadic n k).getLsbD 63 then (-1 : ℚ) else 1) * n.natAbs = n := by
    rw [hsign, Nat.cast_natAbs, Int.cast_abs]
    simp only [decide_eq_true_eq]
    split
    · next hneg => rw [abs_of_neg (mod_cast hneg), neg_one_mul, neg_neg]
    · next hge => rw [abs_of_nonneg (mod_cast not_lt.mp hge), one_mul]
  rw [f64Value_normal _ hpos.ne', hfraction, mul_assoc, mul_assoc, hweight, ← mul_assoc, hmagnitude, div_eq_mul_inv]

/-- Zero is encoded as +0.0, and every other number as a normal one (R121). -/
theorem f64NormalOrZero_f64OfDyadic (n : Int) (k : Nat) (hlt : n.natAbs < 2 ^ 53) (hk : k ≤ 1022) :
    F64NormalOrZero (f64OfDyadic n k) := by
  by_cases hn : n = 0
  · rw [hn]
    exact .inl (f64OfDyadic_zero k)
  · obtain ⟨-, hnormal⟩ := f64Exponent_f64OfDyadic n k hn hlt hk
    exact .inr hnormal

/-! ## The exact humidity and temperature (R120 to R124) -/

/-- The operations read bits 19:0 of a raw register (R120). -/
theorem raw20_eq_mod (r : BitVec 32) : raw20 r = r.toNat % 2 ^ 20 := BitVec.extractLsb'_toNat 0 20 r

theorem humidity_numerator_lt (rh : Nat) (h : rh < 2 ^ 20) : (rh * 100 : Int).natAbs < 2 ^ 53 := by omega

theorem temperature_numerator_lt (t : Nat) (h : t < 2 ^ 20) : (t * 200 - 50 * 2 ^ 20 : Int).natAbs < 2 ^ 53 := by omega

theorem f64Value_humidityF64 (rh : Nat) (h : rh < 2 ^ 20) : f64Value (humidityF64 rh) = humidityOf rh := by
  rw [humidityF64, f64Value_f64OfDyadic _ _ (humidity_numerator_lt rh h) (by decide), humidityOf]
  push_cast
  rfl

theorem f64Value_temperatureF64 (t : Nat) (h : t < 2 ^ 20) : f64Value (temperatureF64 t) = temperatureOf t := by
  rw [temperatureF64, f64Value_f64OfDyadic _ _ (temperature_numerator_lt t h) (by decide), temperatureOf]
  push_cast
  ring

theorem f64NormalOrZero_humidityF64 (rh : Nat) (h : rh < 2 ^ 20) : F64NormalOrZero (humidityF64 rh) :=
  f64NormalOrZero_f64OfDyadic _ 20 (humidity_numerator_lt rh h) (by decide)

theorem f64NormalOrZero_temperatureF64 (t : Nat) (h : t < 2 ^ 20) : F64NormalOrZero (temperatureF64 t) :=
  f64NormalOrZero_f64OfDyadic _ 20 (temperature_numerator_lt t h) (by decide)

/-- Settles O16: the refusals of SCALE, and the exact values it encodes. -/
theorem scaleIsExact : Obligations.ScaleIsExact := by
  refine ⟨reservedImmRefused_op .scale rfl, fun s h => ?_, fun s h => ?_⟩
  · exact ⟨_, exec_scale_unready s h, raiseError_recorded .rawNotReady _ s⟩
  · refine ⟨performedState .scale s, exec_scale_ready s h, rfl, ?_, ?_, ?_, ?_, fun j hj => ?_⟩
    · rw [← raw20_eq_mod]
      exact f64Value_humidityF64 _ (raw20_lt _)
    · rw [← raw20_eq_mod]
      exact f64Value_temperatureF64 _ (raw20_lt _)
    · exact f64NormalOrZero_humidityF64 _ (raw20_lt _)
    · exact f64NormalOrZero_temperatureF64 _ (raw20_lt _)
    · rw [performedState_valid .scale s (by decide) j hj]
      simp [Instr.mnemonic, validBitsSet, beq_eq_decide]

/-- Settles O17: the encodings are exact, and the exact values are linear in the raw field. -/
theorem scaledValuesAreEvenlySpaced : Obligations.ScaledValuesAreEvenlySpaced := by
  intro r hr
  have hr' : r < 2 ^ 20 := by omega
  rw [f64Value_humidityF64 _ hr, f64Value_humidityF64 _ hr', f64Value_temperatureF64 _ hr,
    f64Value_temperatureF64 _ hr', humidityOf, humidityOf, temperatureOf, temperatureOf]
  push_cast
  constructor <;> ring

end Sys2Proof.Machine
end

section
/-! Rounding (`41_scale.md` R126 to R131): what ROUND writes is the rounding of the exact values, at their ties too. -/

namespace Sys2Proof.Machine

/-! ## Rounding a rational over a denominator of 2^20 (`00_scope.md` R16) -/

theorem roundHalfUp_div (n : ℕ) : roundHalfUp ((n : ℚ) / 2 ^ 20) = ((n + 2 ^ 19) / 2 ^ 20 : ℕ) := by
  have hq : (n : ℚ) / 2 ^ 20 + 1 / 2 = ((n + 2 ^ 19 : ℕ) : ℚ) / (2 ^ 20 : ℕ) := by
    push_cast
    ring
  rw [roundHalfUp, hq, Rat.floor_natCast_div_natCast, Int.natCast_div]

/-- Halves away from zero is halves up of the magnitude, with the sign. -/
theorem roundHalfAway_of_neg (q : ℚ) (h : q < 0) : roundHalfAway q = -roundHalfUp (-q) := by
  rw [roundHalfAway, if_pos h, abs_of_neg h, neg_one_mul, roundHalfUp]

theorem roundHalfAway_of_nonneg (q : ℚ) (h : 0 ≤ q) : roundHalfAway q = roundHalfUp q := by
  rw [roundHalfAway, if_neg h.not_gt, abs_of_nonneg h, roundHalfUp]
  split
  · next h0 =>
    rw [h0]
    norm_num
  · exact one_mul _

theorem roundHalfAway_div (n : ℤ) :
    roundHalfAway ((n : ℚ) / 2 ^ 20) = n.sign * ((n.natAbs + 2 ^ 19) / 2 ^ 20 : ℕ) := by
  rcases Int.lt_trichotomy n 0 with hneg | rfl | hpos
  · have hq : (n : ℚ) / 2 ^ 20 < 0 := div_neg_of_neg_of_pos (mod_cast hneg) (by positivity)
    have habs : -((n : ℚ) / 2 ^ 20) = (n.natAbs : ℚ) / 2 ^ 20 := by
      rw [Nat.cast_natAbs, abs_of_neg hneg, Int.cast_neg, neg_div]
    rw [roundHalfAway_of_neg _ hq, habs, roundHalfUp_div, Int.sign_eq_neg_one_of_neg hneg, neg_one_mul]
  · simp [roundHalfAway]
  · have hq : 0 < (n : ℚ) / 2 ^ 20 := div_pos (mod_cast hpos) (by positivity)
    have habs : (n : ℚ) / 2 ^ 20 = (n.natAbs : ℚ) / 2 ^ 20 := by rw [Nat.cast_natAbs, abs_of_pos hpos]
    rw [roundHalfAway_of_nonneg _ hq.le, habs, roundHalfUp_div, Int.sign_eq_one_of_pos hpos, one_mul]

/-- A half-integer is rounded away from zero, by a half. -/
theorem roundHalfAway_half (k : ℤ) :
    (roundHalfAway (k + 1 / 2) : ℚ) = k + 1 / 2 + if (k : ℚ) + 1 / 2 < 0 then -1 / 2 else 1 / 2 := by
  split
  · next hneg =>
    have hq : -((k : ℚ) + 1 / 2) + 1 / 2 = (-k : ℤ) := by
      push_cast
      ring
    rw [roundHalfAway_of_neg _ hneg, roundHalfUp, hq, Int.floor_intCast]
    push_cast
    ring
  · next hge =>
    have hq : (k : ℚ) + 1 / 2 + 1 / 2 = (k + 1 : ℤ) := by
      push_cast
      ring
    rw [roundHalfAway_of_nonneg _ (not_lt.mp hge), roundHalfUp, hq, Int.floor_intCast, ← hq]

/-! ## The rounded humidity and temperature (R126, R127, R129) -/

theorem humidityOf_eq_div (rh : ℕ) : humidityOf rh = ((rh * 100 : ℕ) : ℚ) / 2 ^ 20 := by
  rw [humidityOf, Nat.cast_mul, Nat.cast_ofNat]

theorem ten_temperatureOf_eq_div (t : ℕ) :
    10 * temperatureOf t = ((t * 2000 - 500 * 2 ^ 20 : ℤ) : ℚ) / 2 ^ 20 := by
  rw [temperatureOf]
  push_cast
  ring

theorem humidityPercent_toNat (humRnd : Bool) (rh : ℕ) (h : rh < 2 ^ 20) :
    ((humidityPercent humRnd rh).toNat : ℤ) = percentOf humRnd (humidityOf rh) := by
  rw [humidityOf_eq_div, humidityPercent, BitVec.toNat_ofNat]
  cases humRnd with
  | false =>
    have hround : percentOf false (((rh * 100 : ℕ) : ℚ) / 2 ^ 20) = ((rh * 100 + 2 ^ 19) / 2 ^ 20 : ℕ) :=
      roundHalfUp_div (rh * 100)
    rw [hround, if_neg Bool.false_ne_true]
    omega
  | true =>
    have htruncate : percentOf true (((rh * 100 : ℕ) : ℚ) / 2 ^ 20) = (rh * 100 / 2 ^ 20 : ℕ) :=
      Rat.floor_natCast_div_natCast (rh * 100) (2 ^ 20)
    rw [htruncate, if_pos rfl]
    omega

theorem temperatureTenths_toInt (t : ℕ) (h : t < 2 ^ 20) :
    (temperatureTenths t).toInt = roundHalfAway (10 * temperatureOf t) := by
  rw [ten_temperatureOf_eq_div, roundHalfAway_div, temperatureTenths]
  generalize hn : ((t : ℤ) * 2000 - 500 * 2 ^ 20) = n
  have hrange : ((n.natAbs + 2 ^ 19) / 2 ^ 20 : ℕ) ≤ 1500 := by omega
  rcases Int.sign_trichotomy n with hsign | hsign | hsign <;> rw [hsign] <;>
    exact BitVec.toInt_ofInt_eq_self (by decide) (by omega) (by omega)

/-- Settles O18: the refusals of ROUND, and the rounded exact values it writes. -/
theorem roundRoundsExactValues : Obligations.RoundRoundsExactValues := by
  refine ⟨reservedImmRefused_op .round rfl, fun s h => ?_, fun s h => ?_⟩
  · exact ⟨_, exec_round_unready s h, raiseError_recorded .rawNotReady _ s⟩
  · refine ⟨performedState .round s, exec_round_ready s h, rfl, ?_, ?_, fun j hj => ?_⟩
    · rw [← raw20_eq_mod]
      exact humidityPercent_toNat _ _ (raw20_lt _)
    · rw [← raw20_eq_mod]
      exact temperatureTenths_toInt _ (raw20_lt _)
    · rw [performedState_valid .round s (by decide) j hj]
      simp [Instr.mnemonic, validBitsSet, beq_eq_decide]

/-! ## Ties (R128, R130) -/

theorem humidityOf_tie_iff (rh k : ℕ) : humidityOf rh = k + 1 / 2 ↔ rh * 100 = k * 2 ^ 20 + 2 ^ 19 := by
  rw [humidityOf_eq_div, div_eq_iff (by positivity), ← Nat.cast_inj (R := ℚ)]
  push_cast
  constructor <;> intro h <;> linarith

theorem temperatureOf_tie_iff (t : ℕ) (k : ℤ) :
    10 * temperatureOf t = k + 1 / 2 ↔ (t * 2000 : ℤ) = (k + 500) * 2 ^ 20 + 2 ^ 19 := by
  rw [ten_temperatureOf_eq_div, div_eq_iff (by positivity), ← Int.cast_inj (α := ℚ)]
  push_cast
  constructor <;> intro h <;> linarith

/-- Settles O19: a tie is a raw field with `25 * rh` an odd multiple of 2^17, so `rh` is an odd multiple of 2^17. -/
theorem humidityTies : Obligations.HumidityTies := by
  refine ⟨fun r hr => ?_, by decide, by decide⟩
  simp only [humidityOf_tie_iff, List.mem_cons, List.not_mem_nil, or_false]
  constructor
  · rintro ⟨k, hk⟩
    omega
  · rintro (rfl | rfl | rfl | rfl)
    · exact ⟨12, by decide⟩
    · exact ⟨37, by decide⟩
    · exact ⟨62, by decide⟩
    · exact ⟨87, by decide⟩

theorem exists_temperature_tie_iff (t : ℕ) :
    (∃ k : ℤ, 10 * temperatureOf t = k + 1 / 2) ↔ ∃ m, m % 2 = 1 ∧ t = m * 2 ^ 15 := by
  simp only [temperatureOf_tie_iff]
  constructor
  · rintro ⟨k, hk⟩
    exact ⟨t / 2 ^ 15, by omega, by omega⟩
  · rintro ⟨m, hm, rfl⟩
    exact ⟨(125 * m - 1) / 2 - 500, by omega⟩

/-- Settles O20: the ties are the half-integers, and these are rounded away from zero. -/
theorem temperatureTies : Obligations.TemperatureTies := by
  intro r hr
  refine ⟨exists_temperature_tie_iff r, fun hm => ?_⟩
  obtain ⟨k, hk⟩ := (exists_temperature_tie_iff r).mpr hm
  have hsign : temperatureOf r < 0 ↔ (k : ℚ) + 1 / 2 < 0 := by
    rw [← hk]
    constructor <;> intro h <;> linarith
  rw [temperatureTenths_toInt r hr, hk, roundHalfAway_half]
  simp only [hsign]

/-! ## ROUND after SCALE (R131) -/

theorem runCommands_cons (i : Instr) (is : List Instr) (s t : State) (h : exec i s = .next t) :
    runCommands (i :: is) s = runCommands is t := by
  rw [runCommands, h]

/-- SCALE keeps the raw fields, their valid bit and the rounding mode, so ROUND after it is performed on them. -/
theorem runCommands_scale_round (s : State) (h : s.valid.getLsbD 1 = true) :
    runCommands [.scale, .round] s =
      .next (recordRounded (raw20 s.rawRh) (raw20 s.rawT) (recordScaled (raw20 s.rawRh) (raw20 s.rawT) s)) := by
  have hvalid : (recordScaled (raw20 s.rawRh) (raw20 s.rawT) s).valid.getLsbD 1 = true := by
    rw [recordScaled_valid, getLsbD_setValid, h, Bool.true_or]
  rw [runCommands_cons _ _ s _ (exec_scale_ready s h), runCommands_cons _ _ _ _ (exec_round_ready _ hvalid),
    recordScaled_rawRh, recordScaled_rawT, runCommands]

/-- Settles O21: both commands compute from the exact values of the raw fields, and ROUND reads no scaled value. -/
theorem roundAgreesWithScale : Obligations.RoundAgreesWithScale := by
  refine ⟨fun s h => ⟨_, runCommands_scale_round s h, ?_, ?_⟩, fun s h k v hv => ?_⟩
  · rw [recordRounded_humF64, recordScaled_humF64, f64Value_humidityF64 _ (raw20_lt _)]
    exact humidityPercent_toNat _ _ (raw20_lt _)
  · rw [recordRounded_tempF64, recordScaled_tempF64, f64Value_temperatureF64 _ (raw20_lt _)]
    exact temperatureTenths_toInt _ (raw20_lt _)
  · cases hs : s.valid.getLsbD 1
    · refine ⟨_, _, exec_round_unready s hs, exec_round_unready _ (hv.trans hs), ?_, ?_, ?_⟩
      · rw [raiseError_humPct, raiseError_humPct]
      · rw [raiseError_tempDeci, raiseError_tempDeci]
      · exact raiseError_err_congr _ _ _ _ rfl
    · exact ⟨_, _, exec_round_ready s hs, exec_round_ready _ (hv.trans hs), rfl, rfl, rfl⟩

end Sys2Proof.Machine
end

section
/-! MEASURE (`43_control.md` R162): every result of a frame, each by the lemma of the operation it stands for. -/

namespace Sys2Proof.Machine

/-- The flags a frame check leaves unchanged (`10_state.md` R33). -/
theorem crcFlag_unchanged (ok : Bool) (flags : BitVec 8) (j : Nat) (hj : 3 ≤ j) :
    (crcFlag ok flags).getLsbD j = flags.getLsbD j := by
  rw [getLsbD_crcFlag, if_neg (by omega)]

/-- FLAGS after MEASURE: those of a status decode, then those of a frame check. -/
theorem measureFrame_flags (s : State) :
    (measureFrame s).flags =
      crcFlag ((measureFrame s).crcCalc == (measureFrame s).crcRecv) (statusFlags (frameStatus s.frame) s.flags) := rfl

/-- Settles O30: unloaded MEASURE records an error, and loaded it writes what DECODE, CHECK, SCALE and ROUND do. -/
theorem measureComputesEveryResult : Obligations.MeasureComputesEveryResult := by
  refine ⟨reservedImmRefused_op .measure rfl, fun s h => ?_, fun s h => ?_⟩
  · exact ⟨_, exec_measure_unloaded s h, raiseError_recorded .frameNotLoaded _ s⟩
  rw [← frameRh_eq_append, ← frameT_eq_append]
  have hrh : (frameRh s.frame).toNat < 2 ^ 20 := (frameRh s.frame).isLt
  have ht : (frameT s.frame).toNat < 2 ^ 20 := (frameT s.frame).isLt
  refine ⟨measureFrame s, exec_measure_loaded s h, ?_, ?_, ?_, ?_, fun j hj => ?_, f64Value_humidityF64 _ hrh,
    f64Value_temperatureF64 _ ht, f64NormalOrZero_humidityF64 _ hrh, f64NormalOrZero_temperatureF64 _ ht,
    humidityPercent_toNat _ _ hrh, temperatureTenths_toInt _ ht, fun j hj => ?_⟩
  · rw [BitVec.ofNat_toNat, BitVec.ofNat_toNat]
    rfl
  · rw [measureFrame_flags, crcFlag_busy]
    exact statusFlags_busy _ s.flags
  · rw [measureFrame_flags, crcFlag_cal]
    exact statusFlags_cal _ s.flags
  · rw [measureFrame_flags, crcFlag_crcOk, beq_eq_decide]
  · rw [measureFrame_flags, crcFlag_unchanged _ _ j hj, statusFlags_unchanged _ _ j (by omega)]
  · have hbits : (validBitsSet .measure).contains j = decide (j ≤ 4) := by
      revert j
      decide
    exact (performedState_valid .measure s (by decide) j hj).trans (congrArg _ hbits)

end Sys2Proof.Machine
end

section
/-! The CRC-8 validator (`42_crc.md`). The CRC step is linear and keeps non-zero inputs non-zero, so it is injective in
`c ^ b`: hence CRC_OK is a residue of 0 (R148), and one changed byte changes the residue (R150). -/

namespace Sys2Proof.Machine

/-! ## The CRC step (R140, R149) -/

theorem crc8Shifts_xor (n : Nat) (c d : BitVec 8) : crc8Shifts n (c ^^^ d) = crc8Shifts n c ^^^ crc8Shifts n d := by
  induction n generalizing c d with
  | zero => rfl
  | succ n ih => rw [crc8Shifts, crc8Shift_xor, ih, crc8Shifts, crc8Shifts]

/-- Settles O23: every shift is linear, and XOR of the states and the bytes is XOR of what is shifted. -/
theorem crcStepIsLinear : Obligations.CrcStepIsLinear := by
  intro c c' b b'
  have hinput : (c ^^^ c') ^^^ (b ^^^ b') = (c ^^^ b) ^^^ (c' ^^^ b') := by ac_rfl
  rw [crc8Step, hinput, crc8Shifts_xor, crc8Step, crc8Step]

/-- R149: the rows of the table, which are the step from state 0. -/
theorem crcTable_getElem? (x : BitVec 8) : crcTable[x.toNat]? = some (crc8Step 0 x) := by
  revert x
  decide +kernel

/-- Settles O22: the step depends on `c ^ b` only, and the table holds it for each value of that. -/
theorem crcStepIsTable : Obligations.CrcStepIsTable := by
  intro c b
  rw [crcTable_getElem?, ← crc8Step_eq]

/-- Settles O28, by evaluation. -/
theorem crcReferenceValues : Obligations.CrcReferenceValues := by
  refine ⟨?_, ?_, crc8_nil⟩
  · decide +kernel
  · decide +kernel

/-! ## CRC_INIT and CRC_BYTE (R142, R143) -/

/-- Settles O24: both clauses on performed commands are the equation of CRC_INIT. -/
theorem crcInitStartsAccumulator : Obligations.CrcInitStartsAccumulator :=
  ⟨reservedImmRefused_op .crcInit rfl, fun _ => rfl, fun _ => rfl⟩

/-- Settles O25: the word is that of CRC_BYTE, and its step is in the table. -/
theorem crcByteFeedsAccumulator : Obligations.CrcByteFeedsAccumulator := by
  intro imm s
  have hword : decode (imm ++ 0x31#8) = .ok (.crcByte imm) := decode_encode (.crcByte imm)
  exact ⟨performCommand_ok _ _ s hword, crc8Step s.crcAcc imm, crcStepIsTable s.crcAcc imm, rfl⟩

theorem runCommands_crcByte (bytes : List (BitVec 8)) (s : State) :
    runCommands (bytes.map Instr.crcByte) s = .next { s with crcAcc := bytes.foldl crc8Step s.crcAcc } := by
  induction bytes generalizing s with
  | nil => rfl
  | cons b bytes ih => exact (runCommands_cons _ _ s _ rfl).trans (ih _)

/-- A byte-serial CRC leaves the CRC of its bytes in CRC_ACC (R141). -/
theorem runCommands_crcInit_crcByte (bytes : List (BitVec 8)) (s : State) :
    runCommands (.crcInit :: bytes.map Instr.crcByte) s = .next { s with crcAcc := crc8 bytes } :=
  (runCommands_cons _ _ s _ rfl).trans (runCommands_crcByte bytes { s with crcAcc := 0xFF })

/-! ## CHECK (R144 to R147) -/

theorem recordCheck_crcOk_iff (s : State) :
    (recordCheck s).flags.getLsbD 2 = true ↔ (recordCheck s).crcCalc = (recordCheck s).crcRecv := by
  rw [recordCheck_flags, crcFlag_crcOk, recordCheck_crcCalc, recordCheck_crcRecv, beq_iff_eq]

/-- The window and the checksum byte CRC_PROFILE selects (R145). -/
theorem recordCheck_profile_zero (s : State) (h : s.config.getLsbD 0 = false) :
    (recordCheck s).crcCalc = crc8 [s.frame[0], s.frame[1], s.frame[2], s.frame[3], s.frame[4], s.frame[5]] ∧
    (recordCheck s).crcRecv = s.frame[6] := by
  rw [recordCheck_crcCalc, recordCheck_crcRecv, State.crcProfile, h]
  exact ⟨rfl, rfl⟩

theorem recordCheck_profile_one (s : State) (h : s.config.getLsbD 0 = true) :
    (recordCheck s).crcCalc = crc8 [s.frame[1], s.frame[2], s.frame[3], s.frame[4], s.frame[5], s.frame[6]] ∧
    (recordCheck s).crcRecv = s.frame[0] := by
  rw [recordCheck_crcCalc, recordCheck_crcRecv, State.crcProfile, h]
  exact ⟨rfl, rfl⟩

/-- Settles O26: CHECK unloaded records an error, and loaded it writes the four fields of a frame check. -/
theorem checkValidatesFrame : Obligations.CheckValidatesFrame := by
  refine ⟨reservedImmRefused_op .check rfl, fun s h => ?_, fun s h => ?_⟩
  · exact ⟨_, exec_check_unloaded s h, raiseError_recorded .frameNotLoaded _ s⟩
  · refine ⟨recordCheck s, exec_check_loaded s h, rfl, recordCheck_profile_zero s, recordCheck_profile_one s,
      recordCheck_crcOk_iff s, fun j hj => ?_, fun j hj => ?_⟩
    · rw [recordCheck_flags, getLsbD_crcFlag, if_neg hj]
    · obtain ⟨-, -, hmask, -, -⟩ := getLsbD_masks j hj
      rw [recordCheck_valid, getLsbD_setValid, hmask, beq_eq_decide]

/-! ## Distinct inputs of the CRC step have distinct results (R148, R150) -/

/-- A state that is not 0 is not shifted to 0: a set bit 7 enters as bit 0 of the polynomial, any other moves up. -/
theorem crc8Shift_ne_zero (c : BitVec 8) (h : c ≠ 0) : crc8Shift c ≠ 0 := by
  revert c
  decide

theorem crc8Shifts_ne_zero (n : Nat) (c : BitVec 8) (h : c ≠ 0) : crc8Shifts n c ≠ 0 := by
  induction n generalizing c with
  | zero => exact h
  | succ n ih => exact ih _ (crc8Shift_ne_zero c h)

/-- The step is linear and keeps non-zero values non-zero, so two steps agree only where `c ^ b` does. -/
theorem crc8Step_eq_iff (c b c' b' : BitVec 8) : crc8Step c b = crc8Step c' b' ↔ c ^^^ b = c' ^^^ b' := by
  constructor
  · intro h
    by_contra hne
    have hdiff : crc8Shifts 8 ((c ^^^ b) ^^^ (c' ^^^ b')) ≠ 0 :=
      crc8Shifts_ne_zero 8 _ (mt BitVec.xor_eq_zero_iff.mp hne)
    rw [crc8Shifts_xor] at hdiff
    exact hdiff (BitVec.xor_eq_zero_iff.mpr h)
  · intro h
    rw [crc8Step, crc8Step, h]

theorem crc8Step_eq_zero_iff (c b : BitVec 8) : crc8Step c b = 0 ↔ c = b := by
  rw [← crc8Step_self b, crc8Step_eq_iff, BitVec.xor_left_inj]

/-- Two CRCs over the same bytes agree only where they start from the same state. -/
theorem foldl_crc8Step_inj (bytes : List (BitVec 8)) (c c' : BitVec 8)
    (h : bytes.foldl crc8Step c = bytes.foldl crc8Step c') : c = c' := by
  induction bytes generalizing c c' with
  | nil => exact h
  | cons b bytes ih => exact (BitVec.xor_left_inj b).mp ((crc8Step_eq_iff c b c' b).mp (ih _ _ h))

/-- A CRC over the same bytes but one, from the same state, agrees only where that byte does. -/
theorem foldl_crc8Step_set_inj (bytes : List (BitVec 8)) (i : Nat) (hi : i < bytes.length) (v c : BitVec 8)
    (h : (bytes.set i v).foldl crc8Step c = bytes.foldl crc8Step c) : v = bytes[i] := by
  induction bytes generalizing i c with
  | nil => exact absurd hi (Nat.not_lt_zero i)
  | cons b bytes ih =>
    cases i with
    | zero =>
      have hstep : crc8Step c v = crc8Step c b := foldl_crc8Step_inj bytes _ _ h
      exact (BitVec.xor_right_inj c).mp ((crc8Step_eq_iff c v c b).mp hstep)
    | succ i => exact ih i (Nat.lt_of_succ_lt_succ hi) (crc8Step c b) h

theorem xor_twoPow_ne (x : BitVec 8) (j : Fin 8) : x ^^^ BitVec.twoPow 8 j ≠ x := by
  have hbit : BitVec.twoPow 8 j ≠ 0 := by
    revert j
    decide
  exact mt xor_left_eq_self_iff.mp hbit

/-- Inverting one bit of a frame changes the CRC over its seven bytes (R150). -/
theorem crc8_invert_ne (f : Vector (BitVec 8) 7) (i : Fin 7) (j : Fin 8) :
    crc8 (f.set i (f[i] ^^^ BitVec.twoPow 8 j)).toList ≠ crc8 f.toList := by
  rw [Vector.toList_set]
  intro h
  have hbyte := foldl_crc8Step_set_inj f.toList i (by simp) _ _ h
  exact xor_twoPow_ne f[i] j (hbyte.trans (Vector.getElem_toList _))

/-- CHECK under profile 0 finds a frame good exactly when the CRC over all seven bytes is 0 (R148). -/
theorem recordCheck_crcOk_iff_residue (s : State) (h : s.config.getLsbD 0 = false) :
    (recordCheck s).flags.getLsbD 2 = true ↔ crc8 s.frame.toList = 0 := by
  obtain ⟨hcalc, hrecv⟩ := recordCheck_profile_zero s h
  rw [recordCheck_crcOk_iff, hcalc, hrecv, ← crc8Step_eq_zero_iff, ← crc8_append, frame_toList]
  rfl

/-- Settles O27: the last step of a residue is from a state by itself, and CHECK compares the same two values. -/
theorem crcResidueMatchesCheck : Obligations.CrcResidueMatchesCheck := by
  refine ⟨fun bytes => ?_, fun s hl hp => ?_⟩
  · rw [crc8_append, crc8Step_self]
  · exact ⟨_, _, runCommands_crcInit_crcByte _ s, exec_check_loaded s hl, (recordCheck_crcOk_iff_residue s hp).symm⟩

/-- Settles O29: the CRC over all seven bytes is 0 for a good frame, and the inverted bit changes it. -/
theorem checkDetectsSingleBitErrors : Obligations.CheckDetectsSingleBitErrors := by
  intro s i j hl hp
  refine ⟨_, _, exec_check_loaded s hl, exec_check_loaded _ hl, fun hok => ?_⟩
  have hgood : crc8 s.frame.toList = 0 := (recordCheck_crcOk_iff_residue s hp).mp hok
  have hresidue := recordCheck_crcOk_iff_residue
    { s with frame := s.frame.set i (s.frame[i] ^^^ BitVec.twoPow 8 j) } hp
  rw [← Bool.not_eq_true, hresidue, ← hgood]
  exact crc8_invert_ne s.frame i j

end Sys2Proof.Machine
end

section
/-! The control operations (`43_control.md`): NOP is the only word without an effect in every state (R160), CLEAR the
only command that removes an error (R161), and MEASURE is DECODE; CHECK; SCALE; ROUND (R163). -/

namespace Sys2Proof.Machine

/-! ## Recording an error always shows in ERR (`60_exceptions.md` R184) -/

/-- Once an error is recorded ERR is not 0: its cause is one of R181. -/
theorem raiseError_err_ne_zero (c : ErrCause) (info : BitVec 16) (s : State) : (raiseError c info s).err ≠ 0 := by
  intro herr
  have hcause := raiseError_cause c info s
  rw [herr] at hcause
  split at hcause
  · cases c <;> exact absurd hcause (by decide)
  · next h0 => exact h0 hcause.symm

/-- From a state without an error, recording one is a change. -/
theorem raiseError_ne_self (c : ErrCause) (info : BitVec 16) (s : State) (h : s.err = 0) : raiseError c info s ≠ s :=
  fun hself => raiseError_err_ne_zero c info s ((congrArg State.err hself).trans h)

/-! ## NOP (R160) -/

/-- A command that is refused in the reset state changes it. -/
theorem exec_reset_changes (i : Instr) (h : isPerformed i.mnemonic State.reset = false) :
    exec i State.reset ≠ .next State.reset := by
  obtain ⟨c, -, he⟩ := exec_unperformed i State.reset h
  rw [he]
  exact fun hself => raiseError_ne_self c _ State.reset rfl (Host.Outcome.next.inj hself)

/-- The reset state with a value of CRC_ACC. -/
def withCrcAcc (a : BitVec 8) : State := { State.reset with crcAcc := a }

/-- A performed command that answers its state keeps CRC_ACC. -/
theorem crcAcc_eq_of_exec_self (i : Instr) (a : BitVec 8) (hp : isPerformed i.mnemonic (withCrcAcc a) = true)
    (h : exec i (withCrcAcc a) = .next (withCrcAcc a)) : (performedState i (withCrcAcc a)).crcAcc = a :=
  congrArg State.crcAcc (Host.Outcome.next.inj ((exec_performed i _ hp).symm.trans h))

/-- CRC_BYTE with a non-zero immediate changes an accumulator of 0, and with 0 it changes an accumulator of 1. -/
theorem crcByte_changes_some_state (imm : Byte) : ∃ s, exec (.crcByte imm) s ≠ .next s := by
  by_cases h0 : imm = 0
  · subst h0
    exact ⟨withCrcAcc 1, fun h => absurd (crcAcc_eq_of_exec_self _ _ rfl h) (by decide)⟩
  · refine ⟨withCrcAcc 0, fun h => h0 ?_⟩
    exact ((crc8Step_eq_zero_iff 0 imm).mp (crcAcc_eq_of_exec_self _ _ rfl h)).symm

theorem exec_changes_some_state (i : Instr) (hi : i ≠ .nop) : ∃ s, exec i s ≠ .next s := by
  cases i with
  | nop => exact absurd rfl hi
  | clear | crcInit => exact ⟨withCrcAcc 0, fun h => absurd (crcAcc_eq_of_exec_self _ _ rfl h) (by decide)⟩
  | stat imm =>
    refine ⟨State.reset, fun h => ?_⟩
    have hvalid : setValid vStatMask State.reset.valid = State.reset.valid :=
      congrArg State.valid (Host.Outcome.next.inj h)
    exact absurd hvalid (by decide)
  | crcByte imm => exact crcByte_changes_some_state imm
  | decode | scale | round | check | measure => exact ⟨State.reset, exec_reset_changes _ (by decide)⟩

/-- Settles O9: a word that is refused changes the reset state, and every command but NOP changes some state. -/
theorem nopLeavesStateUnchanged : Obligations.NopLeavesStateUnchanged := by
  refine ⟨reservedImmRefused_op .nop rfl, fun s => rfl, fun w => ⟨fun h => ?_, ?_⟩⟩
  · cases hd : decode w with
    | error e =>
      have hself := (performCommand_error w e State.reset hd).symm.trans (h State.reset)
      exact absurd (Host.Outcome.next.inj hself) (raiseError_ne_self _ w State.reset rfl)
    | ok i =>
      have hi : i = .nop := by
        by_contra hne
        obtain ⟨s, hs⟩ := exec_changes_some_state i hne
        exact hs ((performCommand_ok w i s hd).symm.trans (h s))
      subst hi
      exact (encode_of_decode w .nop hd).symm
  · rintro rfl s
    exact performCommand_ok 0x0000 .nop s (decode_encode .nop)

/-! ## CLEAR (R161) -/

theorem performedState_err (i : Instr) (s : State) (h : i ≠ .clear) : (performedState i s).err = s.err := by
  cases i with
  | clear => exact absurd rfl h
  | _ => rfl

theorem atReset_resetBlock (s : State) : AtReset (resetBlock s) :=
  ⟨rfl, rfl, rfl, rfl, rfl, rfl, rfl, rfl, rfl, rfl, rfl, rfl, rfl, rfl, rfl, rfl, rfl⟩

/-- Settles O10: CLEAR is reset but for CONFIG; another command keeps ERR when performed and records an error when
refused. -/
theorem clearResetsAllButConfig : Obligations.ClearResetsAllButConfig := by
  refine ⟨reservedImmRefused_op .clear rfl, fun s => ?_, fun i s hi => ?_⟩
  · exact ⟨performedState .clear s, rfl, atReset_resetBlock s, rfl, rfl, rfl, rfl⟩
  · obtain ⟨t, ht⟩ := exec_next i s
    refine ⟨t, ht, fun herr => ?_⟩
    rcases exec_cases i s t ht with ⟨-, rfl⟩ | ⟨-, c, -, rfl⟩
    · rwa [performedState_err i s hi]
    · exact raiseError_err_ne_zero c _ s

/-! ## MEASURE and the sequence (R163) -/

/-- Bytes 0 to 5 among the seven loaded bits. -/
theorem loaded_bits_low (v : BitVec 8) : (v.extractLsb' 0 7).extractLsb' 0 6 = v.extractLsb' 0 6 := by
  ext j hj
  simp [BitVec.getElem_extractLsb']

/-- DECODE does not look at byte 6, and the commands after it run from the decoded state. -/
theorem runCommands_decode (s : State) (h : (s.frameVld.extractLsb' 0 7).extractLsb' 0 6 = 0b111111#6)
    (is : List Instr) : runCommands (.decode :: is) s = runCommands is (performedState .decode s) :=
  runCommands_cons .decode is s _ (exec_decode_loaded s ((loaded_bits_low s.frameVld).symm.trans h))

theorem raw20_setWidth (r : BitVec 20) : raw20 (r.setWidth 32) = r.toNat := by
  rw [raw20_eq_mod, BitVec.toNat_setWidth]
  omega

/-- Recording what SCALE and then ROUND compute from the raw fields of a frame (R162). -/
def recordResults (f : Vector (BitVec 8) 7) (s : State) : State :=
  recordRounded (frameRh f).toNat (frameT f).toNat (recordScaled (frameRh f).toNat (frameT f).toNat s)

theorem measureFrame_eq (s : State) :
    measureFrame s = recordResults s.frame (recordCheck (performedState .decode s)) := rfl

/-- SCALE; ROUND from a state whose raw fields are those of a frame. -/
theorem runCommands_scale_round_of_raw (f : Vector (BitVec 8) 7) (s : State) (hv : s.valid.getLsbD 1 = true)
    (hrh : s.rawRh = (frameRh f).setWidth 32) (ht : s.rawT = (frameT f).setWidth 32) :
    runCommands [.scale, .round] s = .next (recordResults f s) := by
  rw [runCommands_scale_round s hv, hrh, ht, raw20_setWidth, raw20_setWidth, recordResults]

theorem decoded_vRaw (s : State) : (performedState .decode s).valid.getLsbD 1 = true := by
  rw [performedState_valid .decode s (by decide) 1 (by decide)]
  exact Bool.or_true _

/-- The results neither read the error record nor write it. -/
theorem recordResults_raiseError (f : Vector (BitVec 8) 7) (c : ErrCause) (info : BitVec 16) (s : State) :
    recordResults f (raiseError c info s) = raiseError c info (recordResults f s) := by
  by_cases h : s.cause = 0
  · rw [raiseError_first c info s h, raiseError_first c info (recordResults f s) h]
    rfl
  · rw [raiseError_later c info s h, raiseError_later c info (recordResults f s) h]
    rfl

/-- Settles O31: every command of the sequence finds what MEASURE computes with, and a refused CHECK leaves it to SCALE
and ROUND. -/
theorem measureEqualsTheSequence : Obligations.MeasureEqualsTheSequence := by
  refine ⟨fun s h => ⟨measureFrame s, exec_measure_loaded s h, ?_⟩, fun s h => ?_⟩
  · have hcheck := exec_check_loaded (performedState .decode s) h
    rw [measureFrame_eq, runCommands_decode s (by rw [h]; decide), runCommands_cons _ _ _ _ hcheck]
    refine runCommands_scale_round_of_raw s.frame _ ?_ rfl rfl
    rw [recordCheck_valid, getLsbD_setValid, decoded_vRaw, Bool.true_or]
  · have hlow : (s.frameVld.extractLsb' 0 7).extractLsb' 0 6 = 0b111111#6 := by rw [h]; decide
    have hunloaded : s.frameVld.extractLsb' 0 7 ≠ 0b1111111#7 := by rw [h]; decide
    have hcheck := exec_check_unloaded (performedState .decode s) hunloaded
    refine ⟨_, recordResults s.frame (performedState .decode s), _, exec_measure_unloaded s hunloaded,
      raiseError_recorded .frameNotLoaded _ s, ?_, ?_, raiseError_recorded .frameNotLoaded (encode .check) _⟩
    · rw [runCommands_decode s hlow]
      exact runCommands_scale_round_of_raw s.frame _ (decoded_vRaw s) rfl rfl
    · rw [runCommands_decode s hlow, runCommands_cons _ _ _ _ hcheck, ← recordResults_raiseError]
      refine runCommands_scale_round_of_raw s.frame _ ?_ (raiseError_rawRh _ _ _) (raiseError_rawT _ _ _)
      rw [raiseError_valid, decoded_vRaw]

end Sys2Proof.Machine
end

section
/-! Errors (`60_exceptions.md`): which cause an access records and what the record then holds, over one step and over a
run; that the record decides nothing else an event does; and that the data do not decide the record. -/

namespace Sys2Proof.Machine

/-! ## The cause a command records when it is not performed (R181) -/

/-- FRAME_NOT_LOADED or RAW_NOT_READY; meant for the operations that have a condition. -/
def unmetCause : Mnemonic → ErrCause
  | .scale | .round => .rawNotReady
  | .nop | .clear | .stat | .decode | .crcInit | .crcByte | .check | .measure => .frameNotLoaded

theorem exec_unmet (i : Instr) (s : State) (h : isPerformed i.mnemonic s = false) :
    exec i s = .next (raiseError (unmetCause i.mnemonic) (encode i) s) := by
  cases i with
  | decode => exact exec_decode_unloaded s (beq_eq_false_iff_ne.mp h)
  | check => exact exec_check_unloaded s (beq_eq_false_iff_ne.mp h)
  | measure => exact exec_measure_unloaded s (beq_eq_false_iff_ne.mp h)
  | scale => exact exec_scale_unready s h
  | round => exact exec_round_unready s h
  | nop | clear | stat _ | crcInit | crcByte _ => cases h

theorem performedState_errInfo (i : Instr) (s : State) (h : i ≠ .clear) :
    (performedState i s).errInfo = s.errInfo := by
  cases i with
  | clear => exact absurd rfl h
  | _ => rfl

/-! ## The priority chain of R186, case by case -/

theorem isRegister_eq_isSome (addr : Byte) (n : Width) : isRegister addr n = (admitted addr n).isSome := by
  rw [Bool.eq_iff_iff, isRegister_iff, Option.isSome_iff_exists]
  exact exists_congr fun r => (admitted_eq_some_iff addr n r).symm

theorem writeCause_noRegister (addr : Byte) (v : Data) (s : State) (h : isRegister addr v.width = false) :
    writeCause addr v s = causeCode .badAccess := by
  simp [writeCause, h, causeCode]

theorem writeCause_readOnly (addr : Byte) (v : Data) (s : State) (hreg : isRegister addr v.width = true)
    (hro : isHostWritable addr = false) : writeCause addr v s = causeCode .readOnly := by
  simp [writeCause, hreg, hro, causeCode]

/-- A write to CONFIG or FRAMEi is accepted. -/
theorem writeCause_data (addr : Byte) (v : Data) (s : State) (hreg : isRegister addr v.width = true)
    (hrw : isHostWritable addr = true) (haddr : addr ≠ 0x00) : writeCause addr v s = 0 := by
  have haddr : (addr != 0x00) = true := bne_iff_ne.mpr haddr
  simp only [writeCause, hreg, hrw, haddr]
  rfl

theorem word_toNat (w : Word16) : (Data.b2 w).bits.toNat = w.toNat := by
  rw [Data.bits, BitVec.toNat_setWidth]
  omega

theorem word_bits (w : Word16) : (Data.b2 w).bits.setWidth 16 = w := BitVec.setWidth_setWidth_of_le w (by decide)

/-- A word that does not decode is refused for the reason the decoder gives. -/
theorem writeCause_undecoded (w : Word16) (e : DecodeError) (s : State) (h : decode w = .error e) :
    writeCause 0x00 (.b2 w) s = causeCode (decodeCause e) := by
  have hreg : isRegister 0#8 (Data.b2 w).width = true := rfl
  have hrw : isHostWritable 0#8 = true := rfl
  by_cases hop : w.toNat % 256 ∈ assignedOps
  · obtain ⟨m, hm⟩ := exists_op_of_assigned w hop
    by_cases himm : m.takesImm = true ∨ immField w = 0
    · cases (decode_performed w m hm himm).symm.trans h
    · obtain ⟨hno, hne⟩ := not_or.mp himm
      obtain rfl := Except.error.inj ((decode_reserved w m hm (Bool.not_eq_true _ ▸ hno) hne).symm.trans h)
      rw [← op_mem_immOps_iff, hm, opField_toNat] at hno
      rw [immField_eq_zero_iff] at hne
      simp [writeCause, hreg, hrw, word_toNat, hop, hno, hne, decodeCause, causeCode]
  · obtain rfl := Except.error.inj ((decode_illegal w (mnemonicOf_unassigned w hop)).symm.trans h)
    simp [writeCause, hreg, hrw, word_toNat, hop, decodeCause, causeCode]

/-- A decoded word is accepted exactly when its command is performed. -/
theorem writeCause_encode (i : Instr) (s : State) :
    writeCause 0x00 (.b2 (encode i)) s =
      if isPerformed i.mnemonic s = false then causeCode (unmetCause i.mnemonic) else 0 := by
  have hreg : isRegister 0#8 (Data.b2 (encode i)).width = true := rfl
  have hrw : isHostWritable 0#8 = true := rfl
  have hop : (encode i).toNat % 256 = i.mnemonic.op.toNat := by rw [← opField_toNat, opField_encode]
  have himm : (encode i).toNat / 256 = i.imm.toNat := by rw [← immField_toNat, immField_encode]
  cases i <;>
    simp [writeCause, hreg, hrw, word_toNat, hop, himm, Instr.mnemonic, Instr.imm, Mnemonic.op, assignedOps, immOps,
      isPerformed, unmetCause, causeCode]

theorem offset_frame_ne_zero (i : Fin 7) : (Reg.frame i).offset ≠ 0x00 := by
  revert i
  decide

/-! ## What an access does to the record of errors -/

/-- From `s` to `t` the record of errors follows `cause`: it stays if there is none, unless the access clears it, and
else that cause is recorded. -/
def FollowsCause (cause : BitVec 4) (info : BitVec 16) (clears : Bool) (s t : State) : Prop :=
  (cause = 0 ∧ (clears = false → t.err = s.err ∧ t.errInfo = s.errInfo)) ∨
  ∃ c, cause = causeCode c ∧ t = raiseError c info s

theorem performCommand_followsCause (w : Word16) (s t : State) (h : performCommand w s = .next t) :
    FollowsCause (writeCause 0x00 (.b2 w) s) w (clearsErrors (commandWrite w)) s t := by
  rcases performCommand_cases w s t h with ⟨i, hi, he⟩ | ⟨e, he, rfl⟩
  · obtain rfl := encode_of_decode w i hi
    rw [writeCause_encode]
    cases hp : isPerformed i.mnemonic s
    · obtain rfl := Host.Outcome.next.inj ((exec_unmet i s hp).symm.trans he)
      exact .inr ⟨_, if_pos rfl, rfl⟩
    · obtain rfl := Host.Outcome.next.inj ((exec_performed i s hp).symm.trans he)
      refine .inl ⟨if_neg (by decide), fun hc => ?_⟩
      have hclear : i ≠ .clear := by
        rintro rfl
        exact absurd hc (by decide)
      exact ⟨performedState_err i s hclear, performedState_errInfo i s hclear⟩
  · exact .inr ⟨_, writeCause_undecoded w e s he, rfl⟩

/-- The detail of a write that is not a word written to CMD. -/
theorem refusalInfo_write (addr : Byte) (v : Data) (h : ¬(addr = 0x00 ∧ v.width = .w2)) :
    refusalInfo (.write addr v) = accessInfo v.width addr := if_neg h

theorem memWrite_followsCause (addr : Byte) (v : Data) (s t : State) (h : memWrite addr v s = .next t) :
    FollowsCause (writeCause addr v s) (refusalInfo (.write addr v)) (clearsErrors (.access (.write addr v))) s t := by
  rcases memWrite_cases addr v s t h with ⟨ha, rfl⟩ | ⟨r, ha, hcases⟩
  · have hreg : isRegister addr v.width = false := by rw [isRegister_eq_isSome, ha]; rfl
    have hcmd : ¬(addr = 0x00 ∧ v.width = .w2) := by
      rintro ⟨rfl, hw⟩
      rw [hw] at hreg
      cases hreg
    rw [refusalInfo_write addr v hcmd]
    exact .inr ⟨_, writeCause_noRegister addr v s hreg, rfl⟩
  · have hreg : isRegister addr v.width = true := by rw [isRegister_eq_isSome, ha]; rfl
    obtain ⟨rfl, -⟩ := (admitted_eq_some_iff addr v.width r).mp ha
    have hrw := isHostWritable_offset r
    rcases hcases with ⟨hr, rfl⟩ | ⟨rfl, hw⟩ | ⟨rfl, rfl⟩ | ⟨i, rfl, rfl⟩
    · rw [hr] at hrw
      have hcmd : ¬(r.offset = 0x00 ∧ v.width = .w2) := by
        rintro ⟨h0, -⟩
        rw [h0] at hrw
        cases hrw
      rw [refusalInfo_write _ v hcmd]
      exact .inr ⟨_, writeCause_readOnly _ v s hreg hrw, rfl⟩
    · obtain ⟨-, w, rfl⟩ := write_of_admitted_cmd _ v ha
      rw [word_bits] at hw
      have hinfo : refusalInfo (.write Reg.cmd.offset (.b2 w)) = w := word_bits w
      rw [hinfo]
      exact performCommand_followsCause w s t hw
    · exact .inl ⟨writeCause_data _ v s hreg hrw (by decide), fun _ => ⟨rfl, rfl⟩⟩
    · exact .inl ⟨writeCause_data _ v s hreg hrw (offset_frame_ne_zero i), fun _ => ⟨rfl, rfl⟩⟩

theorem memWrite_reads (addr : Byte) (v : Data) (s t : State) (h : memWrite addr v s = .next t) :
    t.reads = s.reads := by
  rcases memWrite_cases addr v s t h with ⟨-, rfl⟩ | ⟨r, -, ⟨-, rfl⟩ | ⟨-, hw⟩ | ⟨-, rfl⟩ | ⟨i, -, rfl⟩⟩
  · exact raiseError_reads _ _ s
  · exact raiseError_reads _ _ s
  · rcases performCommand_cases _ s t hw with ⟨i, -, hi⟩ | ⟨e, -, rfl⟩
    · exact (exec_host_fields i s t hi).right.left
    · exact raiseError_reads _ _ s
  · rfl
  · rfl

theorem recordRead_raiseError (d : Data) (c : ErrCause) (info : BitVec 16) (s : State) :
    recordRead d (raiseError c info s) = raiseError c info (recordRead d s) := by
  by_cases h : s.cause = 0
  · rw [raiseError_first c info s h, raiseError_first c info (recordRead d s) h]
    rfl
  · rw [raiseError_later c info s h, raiseError_later c info (recordRead d s) h]
    rfl

theorem memRead_followsCause (addr : Byte) (n : Width) (s : State) :
    FollowsCause (refusalCause (.read addr n) s) (accessInfo n addr) false (recordRead (readValue addr n s) s)
      (memRead addr n s) := by
  unfold memRead readEffect
  rw [refusalCause, isRegister_eq_isSome]
  cases admitted addr n with
  | none => exact .inr ⟨.badAccess, rfl, recordRead_raiseError _ _ _ s⟩
  | some r => exact .inl ⟨rfl, fun _ => ⟨rfl, rfl⟩⟩

/-- Everything an access can do to the record of errors; beside it the access writes at most the host's reads. -/
theorem access_followsCause (a : Access) (s t : State) (h : applyEvent (.access a) s = .next t) :
    FollowsCause (refusalCause a s) (refusalInfo a) (clearsErrors (.access a)) { s with reads := t.reads } t := by
  cases a with
  | read addr n =>
    obtain rfl := Host.Outcome.next.inj h
    have hreads : (memRead addr n s).reads = s.reads ++ [readValue addr n s] := by
      obtain ⟨e, d, he⟩ := readEffect_eq_record addr n s
      rw [memRead, recordRead_reads, he]
    rw [hreads]
    exact memRead_followsCause addr n s
  | write addr v =>
    rw [memWrite_reads addr v s t h]
    exact memWrite_followsCause addr v s t h

theorem causeCode_ne_zero (c : ErrCause) : causeCode c ≠ 0 := by cases c <;> decide

theorem clearsErrors_write (addr : Byte) (v : Data)
    (h : Access.write addr v ≠ .write 0x00 (.b2 0x0001)) : clearsErrors (.access (.write addr v)) = false := by
  simpa [clearsErrors] using h

/-- Settles O44: the priority chain gives the cause that the access follows. -/
theorem accessesRecordFirstCause : Obligations.AccessesRecordFirstCause := by
  intro s a rest hp
  obtain ⟨t, ht⟩ := applyEvent_next (.access a) { s with pending := rest }
  refine ⟨t, (step_event s _ rest hp).trans ht, ?_, ?_, ?_⟩
  · intro hne
    rcases access_followsCause a _ t ht with ⟨h0, -⟩ | ⟨c, hc, hraise⟩
    · exact absurd h0 hne
    · have hcause : refusalCause a s = causeCode c := hc
      have hrecorded := raiseError_recorded c (refusalInfo a) { s with pending := rest, reads := t.reads }
      rwa [← hraise, ← hcause] at hrecorded
  · rintro addr v rfl
    exact memWrite_reads addr v { s with pending := rest } t ht
  · intro h0 hclear
    have hkeeps : clearsErrors (.access a) = false := by
      cases a with
      | read addr n => rfl
      | write addr v => exact clearsErrors_write addr v hclear
    rcases access_followsCause a _ t ht with ⟨-, hsame⟩ | ⟨c, hc, -⟩
    · exact hsame hkeeps
    · exact absurd (hc.symm.trans h0) (causeCode_ne_zero c)

/-! ## The record of errors over a step -/

/-- An event that clears no error is an access, after which the record of errors stands or has one more error. -/
theorem applyEvent_err_cases (e : HostEvent) (s t : State) (he : clearsErrors e = false)
    (h : applyEvent e s = .next t) :
    (t.err = s.err ∧ t.errInfo = s.errInfo) ∨
    ∃ c info reads, t = raiseError c info { s with reads := reads } := by
  cases e with
  | access a =>
    rcases access_followsCause a s t h with ⟨-, hsame⟩ | ⟨c, -, hraise⟩
    · exact .inl (hsame he)
    · exact .inr ⟨c, _, _, hraise⟩
  | reset | resetOver _ => cases he

/-- Settles O45: with a cause recorded, one more error sets MULTI only. -/
theorem firstErrorIsKept : Obligations.FirstErrorIsKept := by
  intro s e rest hp he h0
  obtain ⟨t, ht⟩ := applyEvent_next e { s with pending := rest }
  refine ⟨t, (step_event s e rest hp).trans ht, ?_⟩
  rcases applyEvent_err_cases e _ t he ht with ⟨herr, hinfo⟩ | ⟨c, info, reads, rfl⟩
  · rw [herr]
    exact ⟨rfl, hinfo, id⟩
  · obtain ⟨-, -, hlater⟩ := raiseError_recorded c info { s with pending := rest, reads := reads }
    obtain ⟨hbits, hinfo⟩ := hlater h0
    refine ⟨?_, hinfo, fun _ => ?_⟩
    · rw [raiseError_cause]
      exact if_neg h0
    · rw [hbits 7 (by decide)]
      exact Bool.or_true _

/-- A step that clears no error does not end free of errors unless it began so. -/
theorem errorFree_of_step (s t : State) (hs : ∀ e ∈ s.pending.take 1, clearsErrors e = false) (h : step s = .next t)
    (ht : ErrorFree t) : ErrorFree s := by
  rcases step_cases s t h with ⟨-, rfl⟩ | ⟨e, rest, hp, he⟩
  · exact ht
  · rw [hp] at hs
    rcases applyEvent_err_cases e _ t (hs e (List.mem_singleton_self e)) he with ⟨herr, -⟩ | ⟨c, info, reads, rfl⟩
    · exact herr.symm.trans ht
    · exact absurd ht (raiseError_err_ne_zero c info _)

/-- Settles O46, by induction on the length of the run: its rest is free of errors, so its first step began so. -/
theorem errorFreeAtEndMeansErrorFreeThroughout : Obligations.ErrorFreeAtEndMeansErrorFreeThroughout := by
  intro n
  induction n with
  | zero =>
    intro s u _ hrun hu k hk
    obtain rfl := Nat.le_zero.mp hk
    exact ⟨u, hrun, hu⟩
  | succ n ih =>
    intro s u hs hrun hu k hk
    obtain ⟨t, ht⟩ := step_next s
    rw [runSteps_succ n s t ht] at hrun
    have hrest : ∀ e ∈ t.pending.take n, clearsErrors e = false := by
      have htail : t.pending.take n = (s.pending.take (n + 1)).tail := by
        rw [step_pending s t ht, List.tail_take_eq_take_tail, Nat.add_sub_cancel]
      exact fun e he => hs e (List.mem_of_mem_tail (htail ▸ he))
    have hthrough := ih t u hrest hrun hu
    cases k with
    | zero =>
      obtain ⟨t', ht', hfree⟩ := hthrough 0 (Nat.zero_le n)
      obtain rfl : t = t' := Host.Outcome.next.inj ht'
      have hfirst : ∀ e ∈ s.pending.take 1, clearsErrors e = false := fun e he =>
        hs e (List.take_subset_take_left s.pending (Nat.le_add_left 1 n) he)
      exact ⟨s, rfl, errorFree_of_step s t hfirst ht hfree⟩
    | succ k =>
      rw [runSteps_succ k s t ht]
      exact hthrough k (Nat.le_of_succ_le_succ hk)

/-! ## Two runs of an event, from related states -/

/-- The answers are next states, related by `R`. -/
def BothNext (R : State → State → Prop) (o o' : Host.Outcome State Fault Refusal) : Prop :=
  ∃ t t', o = .next t ∧ o' = .next t' ∧ R t t'

/-- `R` decides whether a command is performed, and everything an event is made of keeps it. -/
structure EventRelation (R : State → State → Prop) : Prop where
  performed : ∀ (i : Instr) (s s' : State), R s s' → isPerformed i.mnemonic s' = isPerformed i.mnemonic s
  error : ∀ c info s s', R s s' → R (raiseError c info s) (raiseError c info s')
  command : ∀ i s s', R s s' → R (performedState i s) (performedState i s')
  config : ∀ v s s', R s s' → R (writeConfig v s) (writeConfig v s')
  frame : ∀ i v s s', R s s' → R (writeFrame i v s) (writeFrame i v s')
  reset : ∀ s s', R s s' → R (resetBlock s) (resetBlock s')
  read : ∀ d d' s s', R s s' → R (recordRead d s) (recordRead d' s')
  pending : ∀ events s s', R s s' → R { s with pending := events } { s' with pending := events }
  count : ∀ s s', R s s' → R { s with freeCount := s.freeCount + 1 } { s' with freeCount := s'.freeCount + 1 }

section

variable {R : State → State → Prop} {s s' : State}

theorem EventRelation.performCommand_both (hR : EventRelation R) (w : Word16) (h : R s s') :
    BothNext R (performCommand w s) (performCommand w s') := by
  cases hd : decode w with
  | error e =>
    exact ⟨_, _, performCommand_error w e s hd, performCommand_error w e s' hd, hR.error _ w s s' h⟩
  | ok i =>
    rw [performCommand_ok w i s hd, performCommand_ok w i s' hd]
    obtain ⟨t, ht⟩ := exec_next i s
    obtain ⟨t', ht', hRt⟩ := exec_keeps_relation i R (hR.performed i) hR.error (hR.command i) s s' t h ht
    exact ⟨t, t', ht, ht', hRt⟩

theorem EventRelation.memWrite_both (hR : EventRelation R) (addr : Byte) (v : Data) (h : R s s') :
    BothNext R (memWrite addr v s) (memWrite addr v s') := by
  unfold memWrite
  split
  · exact ⟨_, _, rfl, rfl, hR.error _ _ s s' h⟩
  · split
    · exact ⟨_, _, rfl, rfl, hR.error _ _ s s' h⟩
    · exact hR.performCommand_both _ h
    · exact ⟨_, _, rfl, rfl, hR.config _ s s' h⟩
    · exact ⟨_, _, rfl, rfl, hR.frame _ _ s s' h⟩

theorem EventRelation.memRead_both (hR : EventRelation R) (addr : Byte) (n : Width) (h : R s s') :
    R (memRead addr n s) (memRead addr n s') := by
  refine hR.read _ _ _ _ ?_
  unfold readEffect
  split
  · exact hR.error _ _ s s' h
  · exact h

theorem EventRelation.applyEvent_both (hR : EventRelation R) (e : HostEvent) (h : R s s') :
    BothNext R (applyEvent e s) (applyEvent e s') := by
  rcases e with (⟨addr, n⟩ | ⟨addr, v⟩) | _ | (⟨addr, n⟩ | ⟨addr, v⟩)
  · exact ⟨_, _, rfl, rfl, hR.memRead_both addr n h⟩
  · exact hR.memWrite_both addr v h
  · exact ⟨_, _, rfl, rfl, hR.reset s s' h⟩
  · exact ⟨_, _, rfl, rfl, hR.count _ _ (hR.read _ _ _ _ (hR.reset s s' h))⟩
  · exact ⟨_, _, rfl, rfl, hR.reset s s' h⟩

theorem EventRelation.step_both (hR : EventRelation R) (hp : s.pending = s'.pending) (h : R s s') :
    BothNext R (step s) (step s') := by
  cases hs' : s'.pending with
  | nil => exact ⟨s, s', step_idle s (hp.trans hs'), step_idle s' hs', h⟩
  | cons e rest =>
    rw [step_event s e rest (hp.trans hs'), step_event s' e rest hs']
    exact hR.applyEvent_both e (hR.pending rest s s' h)

end

/-! ## Errors do not block (R190) -/

/-- The states differ at most in ERR, ERR_INFO and the values of the host's reads. -/
def SameButErrors (s u : State) : Prop :=
  ∃ e info reads, u = { s with err := e, errInfo := info, reads := reads } ∧ reads.length = s.reads.length

theorem sameButErrors_raiseError (c : ErrCause) (info : BitVec 16) (s u : State) (h : SameButErrors s u) :
    SameButErrors (raiseError c info s) (raiseError c info u) := by
  obtain ⟨e, d, reads, rfl, hlen⟩ := h
  obtain ⟨e₁, d₁, h₁⟩ := raiseError_eq_record c info s
  obtain ⟨e₂, d₂, h₂⟩ := raiseError_eq_record c info { s with err := e, errInfo := d, reads := reads }
  rw [h₁, h₂]
  exact ⟨e₂, d₂, reads, rfl, hlen⟩

/-- No operation reads the record of errors. -/
theorem sameButErrors_performedState (i : Instr) (s u : State) (h : SameButErrors s u) :
    SameButErrors (performedState i s) (performedState i u) := by
  obtain ⟨e, d, reads, rfl, hlen⟩ := h
  cases i with
  | clear => exact ⟨0x00, 0x0000, reads, rfl, hlen⟩
  | nop | stat _ | decode | scale | round | crcInit | crcByte _ | check | measure => exact ⟨e, d, reads, rfl, hlen⟩

theorem sameButErrors_recordRead (d d' : Data) (s u : State) (h : SameButErrors s u) :
    SameButErrors (recordRead d s) (recordRead d' u) := by
  obtain ⟨e, info, reads, rfl, hlen⟩ := h
  refine ⟨e, info, reads ++ [d'], rfl, ?_⟩
  rw [recordRead_reads, List.length_append, List.length_append, hlen]
  rfl

theorem eventRelation_sameButErrors : EventRelation SameButErrors where
  performed i s u := by
    rintro ⟨e, d, reads, rfl, -⟩
    cases i <;> rfl
  error := sameButErrors_raiseError
  command := sameButErrors_performedState
  config v s u := fun ⟨e, d, reads, hu, hlen⟩ => ⟨e, d, reads, hu ▸ rfl, hlen⟩
  frame i v s u := fun ⟨e, d, reads, hu, hlen⟩ => ⟨e, d, reads, hu ▸ rfl, hlen⟩
  reset s u := fun ⟨_, _, reads, hu, hlen⟩ => ⟨0x00, 0x0000, reads, hu ▸ rfl, hlen⟩
  read := sameButErrors_recordRead
  pending events s u := fun ⟨e, d, reads, hu, hlen⟩ => ⟨e, d, reads, hu ▸ rfl, hlen⟩
  count s u := fun ⟨e, d, reads, hu, hlen⟩ => ⟨e, d, reads, hu ▸ rfl, hlen⟩

/-- Settles O47: neither the condition nor the effect of an event reads the record of errors. -/
theorem errorsDoNotBlock : Obligations.ErrorsDoNotBlock := by
  intro s e info
  have hboth : BothNext SameButErrors (step s) (step { s with err := e, errInfo := info }) :=
    eventRelation_sameButErrors.step_both rfl ⟨e, info, s.reads, rfl, rfl⟩
  obtain ⟨t, _, ht, hu, e', info', reads, rfl, hlen⟩ := hboth
  exact ⟨t, _, ht, hu, rfl, hlen⟩

/-! ## Errors ignore data values (R182) -/

/-- The states agree on the record of errors and on everything a condition of R181 reads. -/
def SameConditions (s t : State) : Prop :=
  s.frameVld = t.frameVld ∧ s.valid.getLsbD 1 = t.valid.getLsbD 1 ∧ s.err = t.err ∧ s.errInfo = t.errInfo

theorem isPerformed_congr (m : Mnemonic) (s t : State) (h : SameConditions s t) : isPerformed m s = isPerformed m t := by
  obtain ⟨hvld, hraw, -, -⟩ := h
  unfold isPerformed
  rw [hvld, hraw]

theorem sameConditions_raiseError (c : ErrCause) (info : BitVec 16) (s t : State) (h : SameConditions s t) :
    SameConditions (raiseError c info s) (raiseError c info t) := by
  obtain ⟨hvld, hraw, herr, hinfo⟩ := h
  refine ⟨?_, ?_, raiseError_err_congr c info s t herr, raiseError_errInfo_congr c info s t herr hinfo⟩
  · rwa [raiseError_frameVld, raiseError_frameVld]
  · rwa [raiseError_valid, raiseError_valid]

/-- Which valid bits a command sets depends on the command only (`10_state.md` R44). -/
theorem sameConditions_performedState (i : Instr) (s t : State) (h : SameConditions s t) :
    SameConditions (performedState i s) (performedState i t) := by
  obtain ⟨hvld, hraw, herr, hinfo⟩ := h
  by_cases hi : i = .clear
  · rw [hi]
    exact ⟨rfl, rfl, rfl, rfl⟩
  · refine ⟨?_, ?_, ?_, ?_⟩
    · rwa [performedState_frameVld i s hi, performedState_frameVld i t hi]
    · rw [performedState_valid i s hi 1 (by decide), performedState_valid i t hi 1 (by decide), hraw]
    · rwa [performedState_err i s hi, performedState_err i t hi]
    · rwa [performedState_errInfo i s hi, performedState_errInfo i t hi]

theorem eventRelation_sameConditions : EventRelation SameConditions where
  performed i s t h := (isPerformed_congr i.mnemonic s t h).symm
  error := sameConditions_raiseError
  command := sameConditions_performedState
  config _ _ _ h := h
  frame i _ _ _ := fun ⟨hvld, hrest⟩ => ⟨congrArg (setBit · i.val true) hvld, hrest⟩
  reset _ _ _ := ⟨rfl, rfl, rfl, rfl⟩
  read _ _ _ _ h := h
  pending _ _ _ h := h
  count _ _ h := h

/-- Settles O48: the cause of an event is decided by what the two states agree on. -/
theorem errorsIgnoreDataValues : Obligations.ErrorsIgnoreDataValues := by
  intro s t hvld hraw herr hinfo hpending
  have hst : SameConditions s t := ⟨hvld, hraw, herr, hinfo⟩
  obtain ⟨s', t', hs, ht, -, -, herr', hinfo'⟩ := eventRelation_sameConditions.step_both hpending hst
  exact ⟨s', t', hs, ht, herr', hinfo'⟩

end Sys2Proof.Machine
end

section
/-! Reset (`70_reset_and_hazards.md`): the values it leaves, its win over an access that it overlaps, and what a step
does to the host's record of reads. -/

namespace Sys2Proof.Machine

/-! ## Reset values (R200) -/

/-- Settles O38: reset from the reset state is the reset state. -/
theorem resetStateHasSpecValues : Obligations.ResetStateHasSpecValues := atReset_resetBlock State.reset

/-- An overlapped read writes the host's own fields only. -/
theorem atReset_readOverReset (n : Width) (s : State) (h : AtReset s) : AtReset (readOverReset n s) := h

/-! ## The record of reads (R212) -/

/-- The value is free, but for its width (R201, I7). -/
theorem readOverReset_reads (n : Width) (s : State) :
    ∃ d : Data, d.width = n ∧ (readOverReset n s).reads = s.reads ++ [d] :=
  ⟨_, ofBits_width n _, rfl⟩

@[simp] theorem readEffect_reads (addr : Byte) (n : Width) (s : State) : (readEffect addr n s).reads = s.reads := by
  unfold readEffect
  split
  · exact raiseError_reads _ _ s
  · rfl

@[simp] theorem memRead_reads (addr : Byte) (n : Width) (s : State) :
    (memRead addr n s).reads = s.reads ++ [readValue addr n s] := by
  rw [memRead, recordRead_reads, readEffect_reads]

/-- A read, overlapped by a reset or not, records one value; every other event records none. -/
theorem applyEvent_reads_cases (e : HostEvent) (s t : State) (h : applyEvent e s = .next t) :
    t.reads = s.reads ∨ ∃ d, t.reads = s.reads ++ [d] := by
  rcases applyEvent_cases e s t h with
    ⟨addr, n, -, rfl⟩ | ⟨addr, v, -, hw⟩ | ⟨-, rfl⟩ | ⟨addr, n, -, rfl⟩ | ⟨addr, v, -, rfl⟩
  · exact .inr ⟨_, memRead_reads addr n s⟩
  · exact .inl (memWrite_reads addr v s t hw)
  · exact .inl (resetBlock_reads s)
  · obtain ⟨d, -, hd⟩ := readOverReset_reads n (resetBlock s)
    exact .inr ⟨d, hd⟩
  · exact .inl (resetBlock_reads s)

/-- Settles O53: an idle step records nothing, and an event at most one value. -/
theorem readRecordOnlyGrows : Obligations.ReadRecordOnlyGrows := by
  intro s
  obtain ⟨t, ht⟩ := step_next s
  refine ⟨t, ht, ?_⟩
  rcases step_cases s t ht with ⟨-, rfl⟩ | ⟨e, rest, -, he⟩
  · exact .inl rfl
  · exact applyEvent_reads_cases e { s with pending := rest } t he

/-! ## Reset as a step (R201) -/

/-- Settles O39: the step is reset of the block, to which an overlapped read adds the value it returns. -/
theorem resetWinsOverAccess : Obligations.ResetWinsOverAccess := by
  intro s e rest hp he
  have hstep := step_event s e rest hp
  have hreset := atReset_resetBlock { s with pending := rest }
  rcases he with rfl | ⟨⟨addr, n⟩ | ⟨addr, v⟩, rfl⟩
  · exact ⟨_, hstep, hreset, rfl, fun _ => rfl, nofun⟩
  · refine ⟨_, hstep, atReset_readOverReset n _ hreset, rfl, nofun, ?_⟩
    rintro _ _ ⟨⟩
    exact readOverReset_reads n (resetBlock { s with pending := rest })
  · exact ⟨_, hstep, hreset, rfl, fun _ => rfl, nofun⟩

end Sys2Proof.Machine
end
